-- ==== Sys2Proof/Word.lean ====
section
/-! DEFINITION. The word types of the MPP and their plainest arithmetic (00_scope.md R8, R9). Each width that
00_scope.md R7 names is a constant of Config.lean; the types spell it as a numeral, and
Laws/Config.lean has one lemma per type that fails when the two differ. -/

namespace Sys2Proof

/-- One byte of a byte memory (20_memory.md R84). -/
abbrev Byte := BitVec 8

/-- One bus word, register, colour or command word, `Config.wordBits` wide (20_memory.md R81, 30_encoding.md
R110). -/
abbrev Word := BitVec 32

/-- An unsigned hardware address, `Config.addrBits` wide; its arithmetic wraps (44_delta_engine.md R213). -/
abbrev Addr16 := BitVec 16

/-- A bus word address, `Config.busAddrBits` wide (20_memory.md R81). -/
abbrev BusAddr := BitVec 20

/-- `zext_32` of R9. -/
abbrev zext32 {n : Nat} (v : BitVec n) : Word := v.setWidth 32

end Sys2Proof
end

