-- ==== Sys2Proof/Config.lean ====
section
/-! DEFINITION. What an implementation fixes (00_scope.md R7; 92_eei_decisions.md, the table of open
parameters) and the free values of the spec (70_reset_and_hazards.md R324). -/

namespace Sys2Proof

/-- The two slots of image memory, palette and frame buffer (00_scope.md R12). -/
inductive Slot where
  | a
  | b
deriving DecidableEq, Repr

/-- The three legal graphics modes (10_state.md R28); MODE = 3 is reserved and is no `GMode`. -/
inductive GMode where
  | m0
  | m1
  | m2
deriving DecidableEq, Repr

/-- The open build parameter SA_BINDING (42_screen_addressing.md R172). -/
inductive SaBinding where
  | literal
  | interleaved
deriving DecidableEq, Repr

/-- The local memories as the bus sees them (20_memory.md R82). -/
inductive Window where
  | pal (s : Slot)
  | img (s : Slot)
  | fb (s : Slot)
  | out
  | map
  | tile
deriving DecidableEq, Repr

/-- PPB(m), pixels per byte (R7). -/
def GMode.ppb : GMode → Nat
  | .m0 => 2
  | .m1 => 4
  | .m2 => 8

/-- BPP(m), bits per pixel index (R7; 90_conflicts.md C1). -/
def GMode.bpp : GMode → Nat
  | .m0 => 4
  | .m1 => 2
  | .m2 => 1

/-- NCOL(m), the largest palette size (R7). -/
def GMode.ncol : GMode → Nat
  | .m0 => 16
  | .m1 => 4
  | .m2 => 2

/-- A table of bit positions: `T m k j` is the bit of a packed byte that holds bit j of the index of pixel k in
mode m (41_pixel_packer.md R150, R151). Only k < PPB(m) and j < BPP(m) are looked at. -/
abbrev PosTable := GMode → Nat → Nat → Nat

/-- The property every table must have: in each mode it is a bijection from the pairs (k, j) onto the bit positions,
so the positions of the eight pairs are 0 to 7 in some order (R154; the table of open parameters in
92_eei_decisions.md). -/
abbrev PosTable.Bijective (T : PosTable) : Prop :=
  ∀ m : GMode, ((List.range m.ppb).flatMap fun k => (List.range m.bpp).map (T m k)).Perm (List.range 8)

namespace Config

/-- WORD, the bus data width (R7). The type `Word` has this width. -/
def wordBits : Nat := 32
/-- BUS_ADDR_BITS, the bus word-address width (R7). The type `BusAddr` has this width. -/
def busAddrBits : Nat := 20
/-- ADDR_BITS, the width of a delta target address (R7). The type `Addr16` has this width. -/
def addrBits : Nat := 16
/-- CHAN_BITS, bits per colour channel (R7, 10_state.md R46). -/
def chanBits : Nat := 8
/-- BAND_LINES, pixel rows per band (R7). -/
def bandLines : Nat := 8
/-- TILE_CAP, entries in the tile table (R7; 90_conflicts.md C11). -/
def tileCap : Nat := 255
/-- TILE_MAX_BYTES, packed bytes per tile-table entry (R7). -/
def tileMaxBytes : Nat := 512
/-- PAL_ENTRIES, entries per palette RAM (R7). -/
def palEntries : Nat := 16
/-- BANK_STRIDE (R7). PRESUMED by the spec itself: general knowledge G3 of 93_implementation_defined.md. -/
def bankStride : Nat := 0x800
/-- BANK_SIZE (R7). PRESUMED by the spec itself: general knowledge G4 of 93_implementation_defined.md. -/
def bankSize : Nat := 0x4000
/-- FB_CAP, bytes per frame buffer (R7). -/
def fbCap : Nat := 0x8000
/-- IMG_CAP, pixels per image memory (R7). -/
def imgCap : Nat := 0x40000
/-- OUT_CAP, bytes in the stream buffer (R7). -/
def outCap : Nat := 0x10400
/-- MAP_CAP, cells in the tile-map buffer (R7). -/
def mapCap : Nat := 0x8000
/-- DT_ADDR_CAP, addresses held in the delta table (R7). -/
def dtAddrCap : Nat := 0x8000
/-- DT_ITEM_CAP, delta items (R7, 44_delta_engine.md R214). -/
def dtItemCap : Nat := 256

/-- BASEPOS(j) of 41_pixel_packer.md R151. PRESUMED by the spec itself: general knowledge G2 of
93_implementation_defined.md (log entry 8). -/
def basePos : Nat → Nat
  | 0 => 7
  | 1 => 3
  | 2 => 5
  | _ => 1

/-- POS, the configured table of bit positions (R150): here that of R151, which is the same formula in every mode.
Any bijective table can stand in its place, as nothing else looks at the formula (log entry 8). -/
def pos : PosTable := fun _ k j => basePos j - k

/-- The default of SA_BINDING (R7): the sentence of the source as written. -/
def saBindingDefault : SaBinding := .literal

/-- The FREE VALUE of R324: what element `i` of memory `m` holds before anything has written it. It has
no body: nothing can evaluate it or prove a value of it. `epoch` separates one reset's unknown contents
from the next one's; within an epoch the value is the same at every read. -/
opaque unwritten (w : Nat) (epoch : Nat) (m : Window) (i : Nat) : BitVec w

end Config

/-- Number of elements of a window (R7, R82). -/
def Window.size : Window → Nat
  | .pal _ => Config.palEntries
  | .img _ => Config.imgCap
  | .fb _ => Config.fbCap
  | .out => Config.outCap
  | .map => Config.mapCap
  | .tile => Config.tileCap * Config.tileMaxBytes

end Sys2Proof
end

