-- ==== Sys2Proof/Syntax.lean ====
section
/-! DEFINITION. The commands (30_encoding.md R113), the host's bus operations (20_memory.md R83), the
register names (10_state.md R44) and the assembler and host-script lines (30_encoding.md R117, R118). -/

namespace Sys2Proof

/-- The 21 commands of R113 with their operands (R111, R112). One constructor per row of
spec/opcode_table.json. -/
inductive Instr where
  /-- NOP, 46_system.md R270 -/
  | nop
  /-- SRESET, 46_system.md R271 -/
  | sreset
  /-- PLOOKUP, 40_palette_index.md R141 -/
  | plookup (sl : Slot)
  /-- PACK, 41_pixel_packer.md R155 -/
  | pack
  /-- UNPACK, 41_pixel_packer.md R156 -/
  | unpack
  /-- SAFWD, 42_screen_addressing.md R178 -/
  | safwd
  /-- SAINV, 42_screen_addressing.md R179 -/
  | sainv
  /-- ENCODE, 43_frame_codec.md R194 -/
  | encodeFrame (sl : Slot)
  /-- DECODE, 43_frame_codec.md R195 -/
  | decodeFrame (sl : Slot)
  /-- DCLR, 44_delta_engine.md R215 -/
  | dclr
  /-- DADD, 44_delta_engine.md R216 -/
  | dadd (val8 : Byte) (addr16 : Addr16)
  /-- DIFF, 44_delta_engine.md R218 -/
  | diff
  /-- DIFFI, 44_delta_engine.md R219 -/
  | diffi
  /-- MARSHAL, 44_delta_engine.md R223 -/
  | marshal
  /-- UNMARSHAL, 44_delta_engine.md R224 -/
  | unmarshal
  /-- TCLR, 45_tile_board.md R242 -/
  | tclr
  /-- TANALYZE, 45_tile_board.md R243 -/
  | tanalyze (sl : Slot)
  /-- TREDUCE, 45_tile_board.md R246 -/
  | treduce (imm16 : BitVec 16)
  /-- TSORT, 45_tile_board.md R247 -/
  | tsort
  /-- TLOOKUP, 45_tile_board.md R248 -/
  | tlookup (sl : Slot)
  /-- TMAP, 45_tile_board.md R249 -/
  | tmap (sl : Slot)
deriving DecidableEq, Repr

/-- The mnemonics of R113, one per row of the opcode table. -/
inductive Mnemonic where
  | NOP | SRESET | PLOOKUP | PACK | UNPACK | SAFWD | SAINV | ENCODE | DECODE | DCLR | DADD
  | DIFF | DIFFI | MARSHAL | UNMARSHAL | TCLR | TANALYZE | TREDUCE | TSORT | TLOOKUP | TMAP
deriving DecidableEq, Repr

/-- The four formats of R111. -/
inductive Format where
  | N
  | S
  | I
  | B
deriving DecidableEq, Repr

/-- One input to the MPP: a bus operation of the host (R83) or a change of the reset line
(70_reset_and_hazards.md R320). -/
inductive HostOp where
  | read (wa : BusAddr)
  | write (wa : BusAddr) (v : Word)
  | resetLine (asserted : Bool)
deriving DecidableEq, Repr

/-- The registers of the register map R44, in its order. -/
inductive Reg where
  | CMD | ERR | ERRCMD | FLAGS | ARG0 | ARG1 | RES0 | RES1
  | MODE | WIDTH | HEIGHT | COLORS | CTRL | LINEWIDTH | ORIGIN | PLACEX | PLACEY | TILEW | TILEH
  | PALLEN (s : Slot) | FBLEN (s : Slot) | OUTLEN | MAPLEN
  | NFCNT | AOORCNT | TOVFCNT
  | DT_NITEMS | DT_NADDR | DT_SEL | DT_ASEL | DT_ITEM | DT_ADDR
  | TB_NTILES | TB_GEOM | TB_GRID | TB_INFO | TB_SEL | TB_COUNT
  | ID | PARAMS0 | PARAMS1
deriving DecidableEq, Repr

/-- An operand as the assembler text writes it (R117): a slot letter or a number. -/
inductive AsmOperand where
  | slot (s : Slot)
  | num (n : Nat)
deriving DecidableEq, Repr

/-- A command line of R117: a mnemonic and its operands. -/
structure AsmLine where
  mnemonic : Mnemonic
  operands : List AsmOperand
deriving DecidableEq, Repr

/-- A host-script line of R118, or a command line. `wm` and `rm` take any window; for `wm` on TILE see
`ScriptLine.wellFormed`. -/
inductive ScriptLine where
  | cmd (l : AsmLine)
  | wr (r : Reg) (v : Nat)
  | rd (r : Reg)
  | wm (m : Window) (i : Nat) (v : Nat)
  | rm (m : Window) (i : Nat)
  | clrf (v : Nat)
deriving DecidableEq, Repr

/-- The row of the opcode table a command belongs to. -/
def Instr.mnemonic : Instr → Mnemonic
  | .nop => .NOP
  | .sreset => .SRESET
  | .plookup _ => .PLOOKUP
  | .pack => .PACK
  | .unpack => .UNPACK
  | .safwd => .SAFWD
  | .sainv => .SAINV
  | .encodeFrame _ => .ENCODE
  | .decodeFrame _ => .DECODE
  | .dclr => .DCLR
  | .dadd _ _ => .DADD
  | .diff => .DIFF
  | .diffi => .DIFFI
  | .marshal => .MARSHAL
  | .unmarshal => .UNMARSHAL
  | .tclr => .TCLR
  | .tanalyze _ => .TANALYZE
  | .treduce _ => .TREDUCE
  | .tsort => .TSORT
  | .tlookup _ => .TLOOKUP
  | .tmap _ => .TMAP

end Sys2Proof
end

