-- ==== Sys2Proof/WellFormed.lean ====
section
/-! DEFINITION. Which source lines stand for something. Every term of `Instr` is well formed: its operands
are typed as the fields of the encoding (30_encoding.md R112), so a value too wide for its field cannot be
written. What can be ill formed is the text a command is assembled from (R117) and a host-script line
(R118); each check below has a term in Sys2Proof/Tests/Slice0.lean that it refuses. -/

namespace Sys2Proof

/-- Format of each row of R113. -/
def Mnemonic.format : Mnemonic → Format
  | .PLOOKUP | .ENCODE | .DECODE | .TANALYZE | .TLOOKUP | .TMAP => .S
  | .DADD => .B
  | .TREDUCE => .I
  | .NOP | .SRESET | .PACK | .UNPACK | .SAFWD | .SAINV | .DCLR | .DIFF | .DIFFI | .MARSHAL
  | .UNMARSHAL | .TCLR | .TSORT => .N

/-- The operand list fits the syntax of the format (R117): number and kind of the operands, and every
number within its field (R111). -/
def operandsFit : Format → List AsmOperand → Bool
  | .N, [] => true
  | .S, [.slot _] => true
  | .I, [.num n] => n < 2 ^ 16
  | .B, [.num v, .num a] => v < 2 ^ 8 && a < 2 ^ 16
  | .N, _ :: _ => false
  | .S, _ => false
  | .I, _ => false
  | .B, _ => false

/-- A command line assembles (R117). -/
def AsmLine.wellFormed (l : AsmLine) : Bool := operandsFit l.mnemonic.format l.operands

/-- A host-script line stands for a bus operation (R118): a value is one bus word, an element index lies
inside its window (20_memory.md R82). DESIGN CHOICE, unsafe (log entry 16): R118 lists `wm` for PAL, IMG, FB, OUT and
MAP and does not say what a `wm` line that names TILE is; here it is well formed and stands for a HostWrite to the
TILE window, which 20_memory.md R89 ignores. -/
def ScriptLine.wellFormed : ScriptLine → Bool
  | .cmd l => l.wellFormed
  | .wr _ v => v < 2 ^ Config.wordBits
  | .rd _ => true
  | .wm m i v => i < m.size && v < 2 ^ Config.wordBits
  | .rm m i => i < m.size
  | .clrf v => v < 2 ^ Config.wordBits

end Sys2Proof
end

