-- ==== Sys2Proof/Decode.lean ====
section
/-! DEFINITION. Decoding and encoding of command words (30_encoding.md R110 to R117). -/

namespace Sys2Proof

/-- Why a word is no command. -/
inductive DecodeError where
  /-- The opcode is in no row of R113 (R115). -/
  | unassignedOpcode
  /-- The opcode is in the table but a bit its format requires to be 0 is 1 (R114). -/
  | mustBeZeroBitSet
deriving DecidableEq, Repr

/-- The opcode of each row of R113. -/
def Mnemonic.opcode : Mnemonic → BitVec 8
  | .NOP => 0x00
  | .SRESET => 0x01
  | .PLOOKUP => 0x10
  | .PACK => 0x20
  | .UNPACK => 0x21
  | .SAFWD => 0x30
  | .SAINV => 0x31
  | .ENCODE => 0x40
  | .DECODE => 0x41
  | .DCLR => 0x50
  | .DADD => 0x51
  | .DIFF => 0x52
  | .DIFFI => 0x53
  | .MARSHAL => 0x54
  | .UNMARSHAL => 0x55
  | .TCLR => 0x60
  | .TANALYZE => 0x61
  | .TREDUCE => 0x62
  | .TSORT => 0x63
  | .TLOOKUP => 0x64
  | .TMAP => 0x65

/-- The rows of R113, in its order. -/
def opcodeTable : List Mnemonic :=
  [.NOP, .SRESET, .PLOOKUP, .PACK, .UNPACK, .SAFWD, .SAINV, .ENCODE, .DECODE, .DCLR, .DADD,
   .DIFF, .DIFFI, .MARSHAL, .UNMARSHAL, .TCLR, .TANALYZE, .TREDUCE, .TSORT, .TLOOKUP, .TMAP]

/-- The operand bits 23:0 that a format requires to be 0 (R111). -/
def Format.zeroBits : Format → BitVec 24
  | .N => 0xFFFFFF
  | .S => 0xFFFFFE
  | .I => 0xFF0000
  | .B => 0x000000

/-- `op`, word[31:24] (R110). -/
def opField (w : Word) : BitVec 8 := w.extractLsb' 24 8
/-- The bits below the opcode, word[23:0] (R111). -/
def operandField (w : Word) : BitVec 24 := w.extractLsb' 0 24
/-- `s`, word[0] (R112): 0 is slot A, 1 is slot B (R111). -/
def slotField (w : Word) : Slot := if w.getLsbD 0 then .b else .a
/-- `imm16` and `addr16`, word[15:0] (R112). -/
def imm16Field (w : Word) : BitVec 16 := w.extractLsb' 0 16
/-- `val8`, word[23:16] (R112). -/
def val8Field (w : Word) : Byte := w.extractLsb' 16 8

/-- The command of a row with the operands a word carries (R112). -/
def Mnemonic.toInstr (w : Word) : Mnemonic → Instr
  | .NOP => .nop
  | .SRESET => .sreset
  | .PLOOKUP => .plookup (slotField w)
  | .PACK => .pack
  | .UNPACK => .unpack
  | .SAFWD => .safwd
  | .SAINV => .sainv
  | .ENCODE => .encodeFrame (slotField w)
  | .DECODE => .decodeFrame (slotField w)
  | .DCLR => .dclr
  | .DADD => .dadd (val8Field w) (imm16Field w)
  | .DIFF => .diff
  | .DIFFI => .diffi
  | .MARSHAL => .marshal
  | .UNMARSHAL => .unmarshal
  | .TCLR => .tclr
  | .TANALYZE => .tanalyze (slotField w)
  | .TREDUCE => .treduce (imm16Field w)
  | .TSORT => .tsort
  | .TLOOKUP => .tlookup (slotField w)
  | .TMAP => .tmap (slotField w)

/-- The decoder of R113: look the opcode up, then check the format's zero bits, then take the operands. -/
def decode (w : Word) : Except DecodeError Instr :=
  match opcodeTable.find? (fun m => m.opcode == opField w) with
  | none => .error .unassignedOpcode
  | some m =>
    if operandField w &&& m.format.zeroBits = 0 then .ok (m.toInstr w)
    else .error .mustBeZeroBitSet

/-- The instruction the decoder reads from the lowest `nbits` bits of `w`, all higher bits 0. A command
is one bus word (R110), so the word is the command. -/
def decodeTableWord (nbits w : Nat) : Option Instr :=
  (decode (BitVec.ofNat _ (w % 2 ^ nbits))).toOption

/-- The slot bit of format S (R111). -/
def slotBits : Slot → BitVec 24
  | .a => 0
  | .b => 1

/-- The operand bits 23:0 of a command (R111). -/
def operandBits : Instr → BitVec 24
  | .plookup sl | .encodeFrame sl | .decodeFrame sl | .tanalyze sl | .tlookup sl | .tmap sl => slotBits sl
  | .dadd val8 addr16 => val8 ++ addr16
  | .treduce imm16 => 0#8 ++ imm16
  | .nop | .sreset | .pack | .unpack | .safwd | .sainv | .dclr | .diff | .diffi | .marshal | .unmarshal
  | .tclr | .tsort => 0

/-- The word of a command (R111, R113). -/
def encode (i : Instr) : Word := i.mnemonic.opcode ++ operandBits i

/-- What a command line of R117 assembles to; `none` where it is not well formed. -/
def AsmLine.assemble (l : AsmLine) : Option Instr :=
  match l.mnemonic.format, l.operands with
  | .N, [] => some (l.mnemonic.toInstr 0)
  | .S, [.slot s] => some (l.mnemonic.toInstr (zext32 (slotBits s)))
  | .I, [.num n] => if n < 2 ^ 16 then some (l.mnemonic.toInstr (BitVec.ofNat _ n)) else none
  | .B, [.num v, .num a] =>
    if v < 2 ^ 8 ∧ a < 2 ^ 16 then some (l.mnemonic.toInstr (BitVec.ofNat _ (v * 2 ^ 16 + a))) else none
  | _, _ => none

end Sys2Proof
end

