-- ==== Sys2Proof/Machine/State.lean ====
section
/-! DEFINITION. The state of the MPP as plain data (10_state.md R20), its value after reset (R60), and the
reasons a step can stop. -/

namespace Sys2Proof.Machine

/-- A local memory of `w`-bit elements: the elements that something has written since reset, as (index,
value) pairs. An index that is not listed has not been written and holds no known value
(70_reset_and_hazards.md R324; Ops.lean reads it as the free value `Config.unwritten`). `Memory 8` is a
list of `Host.Cell`. -/
abbrev Memory (w : Nat) := List (Nat × BitVec w)

/-- The canonical form of a memory: indices strictly rising. An entry never equals what an unlisted
index holds, since that is no value at all; so equal memories are equal lists. -/
def Memory.wf {w : Nat} (m : Memory w) : Bool := decide ((m.map Prod.fst).Pairwise (· < ·))

/-- A pair of like things, one for each slot (00_scope.md R12). -/
structure PerSlot (α : Type) where
  a : α
  b : α
deriving DecidableEq, Repr

/-- The thing of one slot. -/
def PerSlot.get {α : Type} (p : PerSlot α) : Slot → α
  | .a => p.a
  | .b => p.b

/-- Replace the thing of one slot. -/
def PerSlot.set {α : Type} (p : PerSlot α) (sl : Slot) (x : α) : PerSlot α :=
  match sl with
  | .a => { p with a := x }
  | .b => { p with b := x }

/-- One item of the delta table: byte value, occurrence count, target addresses (10_state.md R50). -/
structure DtItem where
  byte : Byte
  count : BitVec 16
  addrs : List Addr16
deriving DecidableEq, Repr

/-- One entry of the tile table: content and occurrence count (10_state.md R56). -/
structure TileEntry where
  content : List Byte
  count : BitVec 16
deriving DecidableEq, Repr

/-- The tile table with the captured geometry and condition bits of TB_GEOM, TB_GRID and TB_INFO
(10_state.md R42, R56; 45_tile_board.md R241). The captured mode is a legal mode, since TANALYZE
refuses MODE = 3. -/
structure TileTable where
  mode : GMode
  tw : BitVec 16
  th : BitVec 16
  cols : BitVec 16
  rows : BitVec 16
  tbytes : BitVec 16
  valid : Bool
  sorted : Bool
  ovf : Bool
  entries : List TileEntry
deriving DecidableEq, Repr

/-- TB empty, TB_GEOM, TB_GRID and TB_INFO all 0 (10_state.md R60, 45_tile_board.md R242). -/
def TileTable.empty : TileTable :=
  { mode := .m0, tw := 0, th := 0, cols := 0, rows := 0, tbytes := 0
    valid := false, sorted := false, ovf := false, entries := [] }

/-- The complete state of the MPP (10_state.md R20), and below the line the model's own fields. -/
structure State where
  /-- ERR (R25) -/
  err : Word
  /-- ERRCMD (R26) -/
  errCmd : Word
  /-- FLAGS (R27) -/
  flags : BitVec 10
  /-- ARG0 (R21) -/
  arg0 : Word
  /-- ARG1 (R21) -/
  arg1 : Word
  /-- RES0 (R22) -/
  res0 : Word
  /-- RES1 (R22) -/
  res1 : Word
  /-- MODE (R28) -/
  mode : BitVec 2
  /-- WIDTH (R29) -/
  width : BitVec 16
  /-- HEIGHT (R29) -/
  height : BitVec 16
  /-- COLORS (R30) -/
  colors : BitVec 5
  /-- CTRL: SPRITE bit 0, OVERSCAN bit 1 (R31) -/
  ctrl : BitVec 2
  /-- LINEWIDTH (R32) -/
  lineWidth : BitVec 16
  /-- ORIGIN (R33) -/
  origin : Addr16
  /-- PLACEX (R34) -/
  placeX : BitVec 16
  /-- PLACEY (R34) -/
  placeY : BitVec 16
  /-- TILEW (R35) -/
  tileW : BitVec 16
  /-- TILEH (R35) -/
  tileH : BitVec 16
  /-- PALLEN_A, PALLEN_B (R36) -/
  palLen : PerSlot (BitVec 5)
  /-- FBLEN_A, FBLEN_B (R37) -/
  fbLen : PerSlot (BitVec 16)
  /-- OUTLEN (R38) -/
  outLen : BitVec 17
  /-- MAPLEN (R39) -/
  mapLen : BitVec 16
  /-- NFCNT (R40) -/
  nfCnt : Word
  /-- AOORCNT (R40) -/
  aoorCnt : Word
  /-- TOVFCNT (R40) -/
  tovfCnt : Word
  /-- DT_SEL (R41) -/
  dtSel : BitVec 9
  /-- DT_ASEL (R41) -/
  dtASel : BitVec 16
  /-- TB_SEL (R42) -/
  tbSel : BitVec 8
  /-- PAL[A], PAL[B] (R46) -/
  pal : PerSlot (Memory 32)
  /-- IMG[A], IMG[B] (R47) -/
  img : PerSlot (Memory 32)
  /-- FB[A], FB[B] (R48) -/
  fb : PerSlot (Memory 8)
  /-- OUT (R49) -/
  out : Memory 8
  /-- MAP (R52) -/
  map : Memory 8
  /-- DT (R50) -/
  dt : List DtItem
  /-- TB (R56) -/
  tb : TileTable
  /-- MODEL: the build parameter SA_BINDING (R7); no step changes it (log entry 7). -/
  binding : SaBinding
  /-- MODEL: which unknown contents unwritten memory holds; a hardware reset takes fresh ones (log entry 4). -/
  epoch : Nat
  /-- MODEL: the same for TILE elements outside the valid range (log entry 6). -/
  tileEpoch : Nat
  /-- MODEL: the reset input is asserted (70_reset_and_hazards.md R320, log entry 5). -/
  inReset : Bool
  /-- MODEL: the host's future operations, oldest first; a parameter of a run (R20, log entry 1). -/
  pending : List HostOp
  /-- MODEL: what the latest bus operation returned to the host: a word for a HostRead, nothing for a
  HostWrite (20_memory.md R83, log entry 2). -/
  busData : Option Word
deriving DecidableEq, Repr

/-- Why a run stops. Both are raised by the bus (Bus.lean) and by no command. -/
inductive Fault where
  /-- Raised by a HostRead or HostWrite at a reserved address: the bus error of 20_memory.md R88, which
  changes no MPP state. Safe: the model stops where the hardware goes on unchanged (log entry 10). -/
  | busError (wa : BusAddr)
  /-- Raised by a bus operation while the reset input is asserted: it is not accepted
  (70_reset_and_hazards.md R320; U17, stuck). Safe: the model stops where the hardware waits
  (log entry 5). -/
  | heldInReset
deriving DecidableEq, Repr

/-- Why an instruction has no meaning. -/
inductive Refusal where
  /-- Raised by an arm of `exec` whose instruction has no meaning yet. No arm of this model raises it.
  Safe: nothing can be proved of an instruction that is refused. -/
  | notModelled (mnemonic : String)
deriving DecidableEq, Repr

/-- The machine right after reset (10_state.md R60, 70_reset_and_hazards.md R320): every register 0, both
tables empty, every local memory unspecified. -/
def State.reset : State :=
  { err := 0, errCmd := 0, flags := 0, arg0 := 0, arg1 := 0, res0 := 0, res1 := 0
    mode := 0, width := 0, height := 0, colors := 0, ctrl := 0, lineWidth := 0, origin := 0
    placeX := 0, placeY := 0, tileW := 0, tileH := 0
    palLen := ⟨0, 0⟩, fbLen := ⟨0, 0⟩, outLen := 0, mapLen := 0
    nfCnt := 0, aoorCnt := 0, tovfCnt := 0, dtSel := 0, dtASel := 0, tbSel := 0
    pal := ⟨[], []⟩, img := ⟨[], []⟩, fb := ⟨[], []⟩, out := [], map := []
    dt := [], tb := TileTable.empty
    binding := Config.saBindingDefault, epoch := 0, tileEpoch := 0, inReset := false
    pending := [], busData := none }

end Sys2Proof.Machine
end

