-- ==== Sys2Proof/Machine/Flags.lean ====
section
/-! DEFINITION. Error codes, FLAGS bits, event counters and the ERR register (60_exceptions.md R281, R287,
R289; 10_state.md R25 to R27, R40). -/

namespace Sys2Proof.Machine

/-- The ten conditions of R281. -/
inductive Err where
  | notFound
  | addressOutOfRange
  | capacityExceeded
  | sizeMismatch
  | invalidDimensions
  | indexOutOfRange
  | illegalCommand
  | badConfig
  | badStream
  | badState
deriving DecidableEq, Repr

/-- The code of a condition in ERR.CODE (R281). -/
def Err.code : Err → Nat
  | .notFound => 1
  | .addressOutOfRange => 2
  | .capacityExceeded => 3
  | .sizeMismatch => 4
  | .invalidDimensions => 5
  | .indexOutOfRange => 6
  | .illegalCommand => 7
  | .badConfig => 8
  | .badStream => 9
  | .badState => 10

/-- The FLAGS bit of a condition: bit code - 1 (R281, 10_state.md R27). -/
def Err.flagBit (e : Err) : BitVec 10 := 1#10 <<< (e.code - 1)

/-- The three recoverable events (R283, R284, R285). -/
inductive Event where
  | notFound
  | addressOutOfRange
  | capacityExceeded
deriving DecidableEq, Repr

/-- The condition an event is an occurrence of (R281). -/
def Event.err : Event → Err
  | .notFound => .notFound
  | .addressOutOfRange => .addressOutOfRange
  | .capacityExceeded => .capacityExceeded

/-- The ERR.EVT bit of an event, ERR bits 16 to 18 (R289, 10_state.md R25). -/
def Event.evtBit : Event → Word
  | .notFound => 0x00010000
  | .addressOutOfRange => 0x00020000
  | .capacityExceeded => 0x00040000

/-- A counter after `n` more events: it saturates at 2^32 - 1 (R287, 10_state.md R40). -/
def satAdd (c : Word) (n : Nat) : Word := BitVec.ofNat 32 (min (c.toNat + n) (2 ^ 32 - 1))

/-- `flag <Event>` of R287, `n` times in a row: the FLAGS bit, the event's counter (CapacityExceeded has
none), and the bit of ERR.EVT that remembers it (R289). -/
def State.flag (e : Event) (n : Nat) (s : State) : State :=
  { s with
    flags := if n = 0 then s.flags else s.flags ||| e.err.flagBit
    nfCnt := match e with
      | .notFound => satAdd s.nfCnt n
      | .addressOutOfRange | .capacityExceeded => s.nfCnt
    aoorCnt := match e with
      | .addressOutOfRange => satAdd s.aoorCnt n
      | .notFound | .capacityExceeded => s.aoorCnt
    err := if n = 0 then s.err else s.err ||| e.evtBit }

/-- The start of a command that passed its prechecks: ERR.CODE = 0 and no event flagged yet, so that a
command which ends without a `flag` reports 0 (R289). -/
def State.clearReport (s : State) : State := { s with err := 0 }

end Sys2Proof.Machine
end

