-- ==== Sys2Proof/Machine/Ops.lean ====
section
/-! DEFINITION. The named operations over memories and the report of a fatal error, which is this
machine's whole exception mechanism (60_exceptions.md R280, R286; there is no return, R292). -/

namespace Sys2Proof.Machine

/-- What something wrote at an index, if anything did. -/
def Memory.get? {w : Nat} : Memory w → Nat → Option (BitVec w)
  | [], _ => none
  | (k, v) :: t, i => if k = i then some v else Memory.get? t i

/-- Write one element, keeping the indices strictly rising. -/
def Memory.set {w : Nat} : Memory w → Nat → BitVec w → Memory w
  | [], i, v => [(i, v)]
  | (k, x) :: t, i, v =>
    if i < k then (i, v) :: (k, x) :: t
    else if i = k then (i, v) :: t
    else (k, x) :: Memory.set t i v

/-- The elements `i`, `i + 1`, … with the given values. -/
def Memory.run {w : Nat} : Nat → List (BitVec w) → Memory w
  | _, [] => []
  | i, v :: vs => (i, v) :: Memory.run (i + 1) vs

/-- Write the elements 0, 1, … with the given values, in one operation (log entry 12). -/
def Memory.fill {w : Nat} (m : Memory w) (vs : List (BitVec w)) : Memory w :=
  Memory.run 0 vs ++ m.filter (fun c => vs.length ≤ c.1)

/-- Read one element of a memory that is seen as window `win`: what was written there, else the free value of
70_reset_and_hazards.md R324. -/
def Memory.read {w : Nat} (m : Memory w) (epoch : Nat) (win : Window) (i : Nat) : BitVec w :=
  (m.get? i).getD (Config.unwritten w epoch win i)

/-- `PAL[s][i]` (00_scope.md R10). -/
def State.palAt (s : State) (sl : Slot) (i : Nat) : Word := (s.pal.get sl).read s.epoch (.pal sl) i
/-- `IMG[s][i]` (00_scope.md R10). -/
def State.imgAt (s : State) (sl : Slot) (i : Nat) : Word := (s.img.get sl).read s.epoch (.img sl) i
/-- `FB[s][i]` (00_scope.md R10). -/
def State.fbAt (s : State) (sl : Slot) (i : Nat) : Byte := (s.fb.get sl).read s.epoch (.fb sl) i
/-- `OUT[i]` (00_scope.md R10). -/
def State.outAt (s : State) (i : Nat) : Byte := s.out.read s.epoch .out i
/-- `MAP[i]` (00_scope.md R10). -/
def State.mapAt (s : State) (i : Nat) : Byte := s.map.read s.epoch .map i

/-- TB_NTILES (10_state.md R42). -/
def State.ntiles (s : State) : Nat := s.tb.entries.length

/-- `TILE[t][j]`: byte j of content(t) for t < TB_NTILES and j < tb; elsewhere a free value that may be a new
one after every command that writes the TILE store (10_state.md R53, R324; log entry 6). -/
def State.tileAt (s : State) (t j : Nat) : Byte :=
  let free := Config.unwritten 8 s.tileEpoch .tile (Config.tileMaxBytes * t + j)
  match s.tb.entries[t]? with
  | some e => if j < s.tb.tbytes.toNat then e.content.getD j free else free
  | none => free

/-- The TILE elements outside the valid range become unspecified anew (45_tile_board.md R242). -/
def State.setTable (s : State) (tb : TileTable) : State := { s with tb := tb, tileEpoch := s.tileEpoch + 1 }

/-- Write RES0 and RES1 (10_state.md R22). -/
def State.setRes (s : State) (r0 r1 : Word) : State := { s with res0 := r0, res1 := r1 }

/-- `raise <Error>` of R286, the one way a command fails: ERR, ERRCMD and one FLAGS bit change and nothing
else. `w` is the command word that was written to CMD. -/
def State.raise (e : Err) (w : Word) (s : State) : State :=
  { s with
    err := BitVec.ofNat _ e.code
    errCmd := w
    flags := s.flags ||| e.flagBit }

/-- A precheck: the test that fails the command, and the error it raises. -/
abbrev Check := Bool × Err

/-- The first failing test decides; later ones are not looked at (R288). -/
def firstFailure : List Check → Option Err
  | [] => none
  | (failed, e) :: rest => if failed then some e else firstFailure rest

/-- A command: its prechecks in order, then its operation (R286, R289). -/
def guarded (w : Word) (checks : List Check) (s : State) (op : State → State) :
    Host.Outcome State Fault Refusal :=
  match firstFailure checks with
  | some e => .next (s.raise e w)
  | none => .next (op s.clearReport)

/-- The legal mode MODE holds, none for the reserved value 3 (10_state.md R28). -/
def State.gmode? (s : State) : Option GMode :=
  match s.mode.toNat with
  | 0 => some .m0
  | 1 => some .m1
  | 2 => some .m2
  | _ => none

/-- A command that reads MODE: MODE = 3 raises BadConfig before anything else (10_state.md R28; the first
precheck of every rule that reads MODE). -/
def withMode (w : Word) (s : State) (k : GMode → Host.Outcome State Fault Refusal) :
    Host.Outcome State Fault Refusal :=
  match s.gmode? with
  | none => .next (s.raise .badConfig w)
  | some m => k m

end Sys2Proof.Machine
end

