-- ==== Sys2Proof/Machine/Operands.lean ====
section
/-! DEFINITION. The forms in which commands take their operands: configuration fields, palette look-up
(40_palette_index.md R140), packed bytes (41_pixel_packer.md R151 to R153), screen positions
(42_screen_addressing.md R171 to R180), frame positions (20_memory.md R91, R92) and tile cells
(45_tile_board.md R241). -/

namespace Sys2Proof.Machine

/-! ### Configuration fields -/

/-- CTRL.SPRITE (10_state.md R31). -/
def State.sprite (s : State) : Bool := s.ctrl.getLsbD 0
/-- CTRL.OVERSCAN (10_state.md R31). -/
def State.overscan (s : State) : Bool := s.ctrl.getLsbD 1
/-- MW = WIDTH div PPB(MODE) (00_scope.md R11). -/
def State.modeWidth (s : State) (m : GMode) : Nat := s.width.toNat / m.ppb

/-! ### Colours -/

/-- The four channels of a colour word (10_state.md R46). -/
inductive Channel where
  | red
  | green
  | blue
  | alpha
deriving DecidableEq, Repr

/-- Place of a channel, counted in channels from bit 0 (10_state.md R46). -/
def Channel.place : Channel → Nat
  | .red => 0
  | .green => 1
  | .blue => 2
  | .alpha => 3

/-- One channel of a colour word. All four take part in matching, which compares whole words (10_state.md R46,
40_palette_index.md R140; `colour_eq_iff` of Laws/Config.lean says that the two are the same). -/
def channel (ch : Channel) (c : Word) : BitVec Config.chanBits :=
  c.extractLsb' (ch.place * Config.chanBits) Config.chanBits

/-! ### Palette look-up -/

/-- `lookup(s, c)` of R140: the lowest position below PALLEN_s that holds the colour. -/
def State.lookup (s : State) (sl : Slot) (c : Word) : Option Nat :=
  (List.range (s.palLen.get sl).toNat).find? (fun i => s.palAt sl i == c)

/-! ### Packed bytes -/

/-- The pairs (k, j) of a mode: pixel of the group, bit of its index (R151). -/
def planes (m : GMode) : List (Nat × Nat) :=
  (List.range m.ppb).flatMap fun k => (List.range m.bpp).map fun j => (k, j)

/-- `pack(m, p)` of R152 for a table POS: the OR over k and j of ((p[k] >> j) & 1) << POS(m, k, j). -/
def packBy (T : PosTable) (m : GMode) (p : List Nat) : Byte :=
  BitVec.ofNat 8 ((planes m).foldl (fun acc kj => acc ||| (((p.getD kj.1 0 >>> kj.2) &&& 1) <<< T m kj.1 kj.2)) 0)

/-- One index of `unpack(m, b)`, R153, for a table POS. -/
def unpackAtBy (T : PosTable) (m : GMode) (b : Byte) (k : Nat) : Nat :=
  ((List.range m.bpp).map fun j => ((b.toNat >>> T m k j) &&& 1) <<< j).sum

/-- `unpack(m, b)` of R153 for a table POS. -/
def unpackBy (T : PosTable) (m : GMode) (b : Byte) : List Nat := (List.range m.ppb).map (unpackAtBy T m b)

/-- `pack(m, p)` of R152 with the configured table. -/
def pack (m : GMode) (p : List Nat) : Byte := packBy Config.pos m p

/-- One index of `unpack(m, b)`, R153, with the configured table. -/
def unpackAt (m : GMode) (b : Byte) (k : Nat) : Nat := unpackAtBy Config.pos m b k

/-- `unpack(m, b)` of R153 with the configured table. -/
def unpack (m : GMode) (b : Byte) : List Nat := unpackBy Config.pos m b

/-- PACK's operand: nibble k of a word for each pixel k, pixel 0 in the least significant nibble (R155). -/
def nibbles (m : GMode) (v : Word) : List Nat := (List.range m.ppb).map fun k => (v.toNat >>> (4 * k)) % 16

/-- UNPACK's result: SUM over k of p[k] << (4 * k) (R156). -/
def fromNibbles (p : List Nat) : Nat := (p.mapIdx fun k v => v <<< (4 * k)).sum

/-! ### Screen positions -/

/-- What the SA unit reads: SA_BINDING, LINEWIDTH, ORIGIN and the number of banks 1 + CTRL.OVERSCAN. -/
structure Screen where
  binding : SaBinding
  lineWidth : Nat
  origin : Addr16
  banks : Nat
deriving DecidableEq, Repr

/-- The SA configuration of a state, whatever CTRL.SPRITE is. DEDUCED, unsafe (log entry 17): 10_state.md R31 says that
OVERSCAN is ignored while SPRITE = 1, 42_screen_addressing.md R178 and R179 that SAFWD and SAINV read OVERSCAN and do
not read SPRITE; the commands' own rules are followed. The frame commands take this configuration with SPRITE = 0
only, where the two agree. -/
def State.screen (s : State) : Screen :=
  { binding := s.binding, lineWidth := s.lineWidth.toNat, origin := s.origin
    banks := if s.overscan then 2 else 1 }

/-- `sa_cfg_ok()` of R171. -/
def Screen.cfgOk (c : Screen) : Bool :=
  1 ≤ c.lineWidth &&
  match c.binding with
  | .literal => Config.bandLines * c.lineWidth ≤ Config.bankStride
  | .interleaved => c.lineWidth ≤ Config.bankStride

/-- `off1(g, r)` of R172. -/
def Screen.off1 (c : Screen) (g r : Nat) : Nat :=
  match c.binding with
  | .literal => (r / Config.bandLines) * Config.bankStride + (r % Config.bandLines) * c.lineWidth + g
  | .interleaved => (r % Config.bandLines) * Config.bankStride + (r / Config.bandLines) * c.lineWidth + g

/-- RPB, the rows one bank holds (R173). -/
def Screen.rowsPerBank (c : Screen) : Nat :=
  match c.binding with
  | .literal => Config.bandLines * (Config.bankSize / Config.bankStride)
  | .interleaved => Config.bandLines * (Config.bankStride / c.lineWidth)

/-- NROWS, the rows of the whole screen (R173). -/
def Screen.rows (c : Screen) : Nat := c.rowsPerBank * c.banks

/-- `inrange(g, y)` of R174. -/
def Screen.inRange (c : Screen) (g y : Nat) : Bool := g < c.lineWidth && y < c.rows

/-- `offset(g, y)` of R176, with the bank selection of R175. -/
def Screen.offset (c : Screen) (g y : Nat) : Nat :=
  let bank := y / c.rowsPerBank
  bank * Config.bankSize + c.off1 g (y - bank * c.rowsPerBank)

/-- A translation's answer: in range or not, and the two numbers returned (R177, R180). -/
structure Translation where
  ok : Bool
  fst : Nat
  snd : Nat
deriving DecidableEq, Repr

/-- `forward(x, y)` of R177: offset and hardware address; out of range, those of coordinate (0, 0). The
caller raises the AddressOutOfRange event. -/
def Screen.forward (c : Screen) (m : GMode) (x y : Nat) : Translation :=
  let g := x / m.ppb
  if c.inRange g y then
    { ok := true, fst := c.offset g y, snd := (c.origin.toNat + c.offset g y) % 2 ^ Config.addrBits }
  else { ok := false, fst := 0, snd := c.origin.toNat }

/-- `inverse(a)` of R180: the coordinate of the leftmost pixel of the byte at a hardware address; outside the
banks or in a gap, (0, 0). The caller raises the AddressOutOfRange event. -/
def Screen.inverse (c : Screen) (m : GMode) (a : Addr16) : Translation :=
  let out : Translation := { ok := false, fst := 0, snd := 0 }
  let rel := (a - c.origin).toNat
  if Config.bankSize * c.banks ≤ rel then out
  else
    let bank := rel / Config.bankSize
    let q := rel % Config.bankSize
    let t := q % Config.bankStride
    let g := t % c.lineWidth
    match c.binding with
    | .literal =>
      let band := q / Config.bankStride
      let row := t / c.lineWidth
      if Config.bandLines ≤ row then out
      else { ok := true, fst := g * m.ppb, snd := bank * c.rowsPerBank + band * Config.bandLines + row }
    | .interleaved =>
      let row := q / Config.bankStride
      let band := t / c.lineWidth
      if Config.bandLines ≤ row ∨ Config.bankStride / c.lineWidth ≤ band then out
      else { ok := true, fst := g * m.ppb, snd := bank * c.rowsPerBank + band * Config.bandLines + row }

/-! ### Frame positions -/

/-- `rasterloc(g, y)` of 20_memory.md R91 for a mode width. -/
def rasterLoc (mw g y : Nat) : Nat := y * mw + g

/-- `loc(g, y)` of 20_memory.md R92: where the byte of group column g, row y of a frame lies. -/
def State.loc (s : State) (m : GMode) (g y : Nat) : Nat :=
  if s.sprite then rasterLoc (s.modeWidth m) g y else s.screen.offset g y

/-- The positions (g, y) of a frame in raster order: y outer, g inner, both ascending (00_scope.md R11). -/
def State.positions (s : State) (m : GMode) : List (Nat × Nat) :=
  (List.range s.height.toNat).flatMap fun y => (List.range (s.modeWidth m)).map fun g => (g, y)

/-- FrameLen of 43_frame_codec.md R191. -/
def State.frameLen (s : State) (m : GMode) : Nat :=
  if s.sprite then s.modeWidth m * s.height.toNat else Config.bankSize * s.screen.banks

/-! ### The frame prechecks of 43_frame_codec.md R190, by the number of the row. Row 1 is `withMode`. -/

/-- Test 2: COLORS = 0 or COLORS > NCOL(MODE). -/
def State.test2 (s : State) (m : GMode) : Check :=
  (s.colors.toNat = 0 || m.ncol < s.colors.toNat, .badConfig)
/-- Test 3 for one slot: PALLEN_s = 0 or PALLEN_s > COLORS. -/
def State.test3 (s : State) (sl : Slot) : Check :=
  ((s.palLen.get sl).toNat = 0 || s.colors.toNat < (s.palLen.get sl).toNat, .badConfig)
/-- Test 4: CTRL.SPRITE = 0 and not sa_cfg_ok(). -/
def State.test4 (s : State) : Check := (!s.sprite && !s.screen.cfgOk, .badConfig)
/-- Test 5: FBLEN_A ≠ FBLEN_B. -/
def State.test5 (s : State) : Check := (s.fbLen.a != s.fbLen.b, .sizeMismatch)
/-- Test 6: WIDTH = 0 or HEIGHT = 0 or WIDTH mod PPB(MODE) ≠ 0. -/
def State.test6 (s : State) (m : GMode) : Check :=
  (s.width.toNat = 0 || s.height.toNat = 0 || s.width.toNat % m.ppb != 0, .invalidDimensions)
/-- Test 7: WIDTH × HEIGHT > IMG_CAP. -/
def State.test7 (s : State) : Check :=
  (Config.imgCap < s.width.toNat * s.height.toNat, .invalidDimensions)
/-- Test 8: CTRL.SPRITE = 1 and MW × HEIGHT > FB_CAP. -/
def State.test8 (s : State) (m : GMode) : Check :=
  (s.sprite && decide (Config.fbCap < s.modeWidth m * s.height.toNat), .invalidDimensions)
/-- Test 9: CTRL.SPRITE = 0 and (MW > LINEWIDTH or HEIGHT > NROWS). -/
def State.test9 (s : State) (m : GMode) : Check :=
  (!s.sprite && (decide (s.screen.lineWidth < s.modeWidth m) || decide (s.screen.rows < s.height.toNat)),
    .invalidDimensions)
/-- Test 10 for one slot: FBLEN_s ≠ FrameLen. -/
def State.test10 (s : State) (m : GMode) (sl : Slot) : Check :=
  ((s.fbLen.get sl).toNat != s.frameLen m, .invalidDimensions)

/-! ### Pixel groups of an image (43_frame_codec.md R192, R193) -/

/-- `IMG[s][y × WIDTH + x]` looked up in the slot's palette: the position, none on a miss. -/
def State.resolve? (s : State) (sl : Slot) (x y : Nat) : Option Nat :=
  s.lookup sl (s.imgAt sl (y * s.width.toNat + x))

/-- The look-ups of a pixel group, left to right (R193). -/
def State.group (s : State) (m : GMode) (sl : Slot) (g y : Nat) : List (Option Nat) :=
  (List.range m.ppb).map fun k => s.resolve? sl (g * m.ppb + k) y

/-- `packgroup(s, g, y)` of R193, index 0 substituted on a miss (R192, 40_palette_index.md R142). -/
def State.packGroup (s : State) (m : GMode) (sl : Slot) (g y : Nat) : Byte :=
  pack m ((s.group m sl g y).map (·.getD 0))

/-- The NotFound events that packing every group of an image raises: one per missing pixel (R192). -/
def State.imageMisses (s : State) (m : GMode) (sl : Slot) : Nat :=
  ((s.positions m).map fun p => (s.group m sl p.1 p.2).count none).sum

/-! ### Tile cells (45_tile_board.md R241) -/

/-- twb, bytes per tile row (R241). -/
def TileTable.rowBytes (tb : TileTable) : Nat := tb.tw.toNat / tb.mode.ppb
/-- mw, bytes per frame row (R241). -/
def TileTable.frameRowBytes (tb : TileTable) : Nat := tb.cols.toNat * tb.rowBytes
/-- cols × rows, the number of cells (R241). -/
def TileTable.cells (tb : TileTable) : Nat := tb.cols.toNat * tb.rows.toNat

/-- The element of the frame buffer that holds byte j = r × twb + c of cell n (R241). -/
def TileTable.cellLoc (tb : TileTable) (n j : Nat) : Nat :=
  let cx := n % tb.cols.toNat
  let cy := n / tb.cols.toNat
  let r := j / tb.rowBytes
  let c := j % tb.rowBytes
  (cy * tb.th.toNat + r) * tb.frameRowBytes + cx * tb.rowBytes + c

/-- `cellcontent(s, n)` of R241 under a captured geometry. -/
def State.cellContent (s : State) (tb : TileTable) (sl : Slot) (n : Nat) : List Byte :=
  (List.range tb.tbytes.toNat).map fun j => s.fbAt sl (tb.cellLoc n j)

/-- The position of the entry with a given content (45_tile_board.md R248): at most one can have it
(10_state.md R57 a). -/
def tileIndex (t : List Byte) (es : List TileEntry) : Option Nat := es.findIdx? (fun e => e.content == t)

end Sys2Proof.Machine
end

