-- ==== Sys2Proof/Machine/DeltaEngine.lean ====
section
/-! DEFINITION. The delta accumulator (44_delta_engine.md R211 to R224). -/

namespace Sys2Proof.Machine

/-! ### The table -/

/-- `DTadd(b, t)` of R211. -/
def dtAdd (b : Byte) (t : Addr16) : List DtItem → List DtItem
  | [] => [{ byte := b, count := 1, addrs := [t] }]
  | it :: rest =>
    if it.byte = b then { it with count := it.count + 1, addrs := it.addrs ++ [t] } :: rest
    else it :: dtAdd b t rest

/-- DT_NADDR: the number of addresses, all items together (10_state.md R41). -/
def dtTotal (dt : List DtItem) : Nat := (dt.map fun it => it.addrs.length).sum

/-- Accumulate a list of changes, in order. -/
def dtAddAll (dt : List DtItem) (cs : List (Byte × Addr16)) : List DtItem :=
  cs.foldl (fun dt c => dtAdd c.1 c.2 dt) dt

/-- DCLR (R215). -/
def execDclr (s : State) : Host.Outcome State Fault Refusal :=
  guarded (encode .dclr) [] s fun s => { s with dt := [] }

/-- DADD (R216). -/
def execDadd (val8 : Byte) (addr16 : Addr16) (s : State) : Host.Outcome State Fault Refusal :=
  guarded (encode (.dadd val8 addr16)) [(dtTotal s.dt == Config.dtAddrCap, .capacityExceeded)] s
    fun s => { s with dt := dtAdd val8 addr16 s.dt }

/-! ### Comparison -/

/-- One changed position: the new byte, the target address, and whether that address was substituted for an
out-of-range one (R217). -/
structure Change where
  byte : Byte
  addr : Addr16
  outOfRange : Bool
deriving DecidableEq, Repr

/-- `target(g, y)` of R217 for a new byte. -/
def State.target (s : State) (m : GMode) (b : Byte) (g y : Nat) : Change :=
  if s.sprite then
    { byte := b, addr := BitVec.ofNat _ (rasterLoc (s.modeWidth m) g y), outOfRange := false }
  else
    let t := s.screen.forward m (s.placeX.toNat + g * m.ppb) (s.placeY.toNat + y)
    { byte := b, addr := BitVec.ofNat _ t.snd, outOfRange := !t.ok }

/-- The changed positions in raster order, for the old and the new byte of each position (R212, R218, R219). -/
def State.changes (s : State) (m : GMode) (old new : Nat → Nat → Byte) : List Change :=
  (s.positions m).filterMap fun p =>
    if old p.1 p.2 = new p.1 p.2 then none else some (s.target m (new p.1 p.2) p.1 p.2)

/-- Rebuild DT from the changed positions; one AddressOutOfRange event for each substituted address. -/
def State.accumulate (cs : List Change) (s : State) : State :=
  State.flag .addressOutOfRange (cs.countP (·.outOfRange))
    { s with dt := dtAddAll [] (cs.map fun c => (c.byte, c.addr)) }

/-- The changes DIFF sees: the packed bytes of the two frame buffers (R218). -/
def State.frameChanges (s : State) (m : GMode) : List Change :=
  s.changes m (fun g y => s.fbAt .a (s.loc m g y)) (fun g y => s.fbAt .b (s.loc m g y))

/-- DIFF (R218). -/
def execDiff (s : State) : Host.Outcome State Fault Refusal :=
  withMode (encode .diff) s fun m =>
    guarded (encode .diff) [s.test4, s.test5, s.test6 m, s.test8 m, s.test9 m, s.test10 m .a] s
      (State.accumulate (s.frameChanges m))

/-- The changes DIFFI sees: each image's groups packed with its own palette (R219). -/
def State.imageChanges (s : State) (m : GMode) : List Change :=
  s.changes m (s.packGroup m .a) (s.packGroup m .b)

/-- DIFFI (R219). -/
def execDiffi (s : State) : Host.Outcome State Fault Refusal :=
  withMode (encode .diffi) s fun m =>
    guarded (encode .diffi)
      [s.test2 m, s.test3 .a, s.test3 .b, s.test4, s.test6 m, s.test7, s.test8 m, s.test9 m] s
      fun s0 => (s0.accumulate (s.imageChanges m)).flag .notFound (s.imageMisses m .a + s.imageMisses m .b)

/-! ### The marshalled stream -/

/-- A record of the stream: value and addresses (R222). -/
abbrev Record := Byte × List Addr16

/-- The records of one item: its first count addresses in chunks of at most 255 (R223). -/
def DtItem.records (it : DtItem) : List Record :=
  (List.range ((it.count.toNat + 254) / 255)).map fun q =>
    (it.byte, ((it.addrs.take it.count.toNat).drop (255 * q)).take 255)

/-- A 16-bit value as two bytes, the low one first (20_memory.md R85). -/
def bytesLE (n : Nat) : List Byte := [BitVec.ofNat 8 (n % 256), BitVec.ofNat 8 (n / 256)]

/-- The bytes of a record (R222). -/
def recordBytes (r : Record) : List Byte :=
  r.1 :: BitVec.ofNat 8 r.2.length :: r.2.flatMap fun t => bytesLE t.toNat

/-- The records of a table (R223). -/
def dtRecords (dt : List DtItem) : List Record := dt.flatMap DtItem.records

/-- The stream of a list of records: their number, then each of them (R222). -/
def streamBytes (recs : List Record) : List Byte := bytesLE recs.length ++ recs.flatMap recordBytes

/-- The operation of MARSHAL (R223). -/
def State.marshalTable (s : State) : State :=
  { s with
    out := s.out.fill (streamBytes (dtRecords s.dt))
    outLen := BitVec.ofNat 17 (streamBytes (dtRecords s.dt)).length }

/-- MARSHAL (R223). -/
def execMarshal (s : State) : Host.Outcome State Fault Refusal :=
  guarded (encode .marshal) [] s State.marshalTable

/-- The first `n` addresses of a byte string, low byte first, and what follows them; none if they are cut
off (R224). -/
def takeAddrs : Nat → List Byte → Option (List Addr16 × List Byte)
  | 0, bs => some ([], bs)
  | n + 1, lo :: hi :: bs => (takeAddrs n bs).map fun r => ((hi ++ lo) :: r.1, r.2)
  | _ + 1, [] => none
  | _ + 1, [_] => none

/-- The given number of records, with nothing left over; none where a record is cut off or bytes remain
(R224). -/
def parseRecords : Nat → List Byte → Option (List Record)
  | 0, [] => some []
  | 0, _ :: _ => none
  | n + 1, v :: c :: bs =>
    match takeAddrs c.toNat bs with
    | none => none
    | some (as, rest) => (parseRecords n rest).map ((v, as) :: ·)
  | _ + 1, [] => none
  | _ + 1, [_] => none

/-- The validation of a stream: its records, none where R224 raises BadStream. -/
def parseStream : List Byte → Option (List Record)
  | lo :: hi :: bs =>
    match parseRecords (lo.toNat + 256 * hi.toNat) bs with
    | none => none
    | some recs => if (recs.map (·.2.length)).sum ≤ Config.dtAddrCap then some recs else none
  | [] => none
  | [_] => none

/-- The stream in OUT: `OUT[0 .. OUTLEN-1]`, refused when it is longer than OUT (R224). -/
def State.outRecords (s : State) : Option (List Record) :=
  if Config.outCap < s.outLen.toNat then none
  else parseStream ((List.range s.outLen.toNat).map s.outAt)

/-- The addresses of records in replay order, each with its record's value (R224). -/
def replayList (recs : List Record) : List (Byte × Addr16) :=
  recs.flatMap fun r => r.2.map fun t => (r.1, t)

/-- UNMARSHAL (R224). -/
def execUnmarshal (s : State) : Host.Outcome State Fault Refusal :=
  guarded (encode .unmarshal) [(s.outRecords.isNone, .badStream)] s
    fun s0 => { s0 with dt := dtAddAll [] (replayList (s.outRecords.getD [])) }

end Sys2Proof.Machine
end

