-- ==== Sys2Proof/Machine/FrameCodec.lean ====
section
/-! DEFINITION. The frame codec driver (43_frame_codec.md R194, R195). -/

namespace Sys2Proof.Machine

/-- The frame buffer ENCODE leaves: the first FrameLen bytes zero, then one packed byte for each position in
raster order (R194). -/
def State.encodedFrame (s : State) (m : GMode) (sl : Slot) : Memory 8 :=
  (s.positions m).foldl (fun fb p => fb.set (s.loc m p.1 p.2) (s.packGroup m sl p.1 p.2))
    ((s.fb.get sl).fill (List.replicate (s.frameLen m) 0))

/-- The operation of ENCODE (R194). -/
def State.encodeSlot (m : GMode) (sl : Slot) (s : State) : State :=
  State.flag .notFound (s.imageMisses m sl)
    { s with
      fb := s.fb.set sl (s.encodedFrame m sl)
      fbLen := s.fbLen.set sl (BitVec.ofNat 16 (s.frameLen m)) }

/-- ENCODE (R194). -/
def execEncode (sl : Slot) (s : State) : Host.Outcome State Fault Refusal :=
  withMode (encode (.encodeFrame sl)) s fun m =>
    guarded (encode (.encodeFrame sl))
      [s.test2 m, s.test3 sl, s.test4, s.test6 m, s.test7, s.test8 m, s.test9 m] s
      (State.encodeSlot m sl)

/-- The index of pixel (x, y) in the packed frame of a slot (R195). -/
def State.frameIndex (s : State) (m : GMode) (sl : Slot) (x y : Nat) : Nat :=
  unpackAt m (s.fbAt sl (s.loc m (x / m.ppb) y)) (x % m.ppb)

/-- The colour DECODE writes for an index: its palette entry, or entry 0 for an index that is no palette
position (R195, 60_exceptions.md R283 b). -/
def State.indexColour (s : State) (sl : Slot) (p : Nat) : Word :=
  if p < (s.palLen.get sl).toNat then s.palAt sl p else s.palAt sl 0

/-- The indices of every pixel of the frame, in the order of the image memory: element i is pixel
(i mod WIDTH, i div WIDTH) (R195, 10_state.md R47; log entry 12). -/
def State.frameIndices (s : State) (m : GMode) (sl : Slot) : List Nat :=
  (List.range (s.width.toNat * s.height.toNat)).map fun i =>
    s.frameIndex m sl (i % s.width.toNat) (i / s.width.toNat)

/-- The operation of DECODE (R195). -/
def State.decodeSlot (m : GMode) (sl : Slot) (s : State) : State :=
  State.flag .notFound ((s.frameIndices m sl).countP fun p => (s.palLen.get sl).toNat ≤ p)
    { s with img := s.img.set sl ((s.img.get sl).fill ((s.frameIndices m sl).map (s.indexColour sl))) }

/-- DECODE (R195). -/
def execDecode (sl : Slot) (s : State) : Host.Outcome State Fault Refusal :=
  withMode (encode (.decodeFrame sl)) s fun m =>
    guarded (encode (.decodeFrame sl))
      [s.test2 m, s.test3 sl, s.test4, s.test6 m, s.test7, s.test8 m, s.test9 m, s.test10 m sl] s
      (State.decodeSlot m sl)

end Sys2Proof.Machine
end

