-- ==== Sys2Proof/Machine/PaletteIndex.lean ====
section
/-! DEFINITION. The palette index unit (40_palette_index.md R141, R142). -/

namespace Sys2Proof.Machine

/-- The result of a look-up that can miss: position and miss flag in RES0 and RES1, a miss raising NotFound
with position 0 substituted (R141, R142; the same for tiles, 45_tile_board.md R248). -/
def State.reportLookup (r : Option Nat) (s : State) : State :=
  match r with
  | some i => s.setRes (BitVec.ofNat _ i) 0
  | none => (s.flag .notFound 1).setRes 0 1

/-- PLOOKUP (R141). -/
def execPlookup (sl : Slot) (s : State) : Host.Outcome State Fault Refusal :=
  guarded (encode (.plookup sl)) [(Config.palEntries < (s.palLen.get sl).toNat, .badConfig)] s
    (State.reportLookup (s.lookup sl s.arg0))

end Sys2Proof.Machine
end

