-- ==== Sys2Proof/Machine/PixelPacker.lean ====
section
/-! DEFINITION. The pixel packer (41_pixel_packer.md R155, R156). -/

namespace Sys2Proof.Machine

/-- PACK (R155). -/
def execPack (s : State) : Host.Outcome State Fault Refusal :=
  withMode (encode .pack) s fun m =>
    guarded (encode .pack) [((nibbles m s.arg0).any (fun p => 2 ^ m.bpp ≤ p), .indexOutOfRange)] s
      (State.setRes · (zext32 (pack m (nibbles m s.arg0))) 0)

/-- UNPACK (R156). -/
def execUnpack (s : State) : Host.Outcome State Fault Refusal :=
  withMode (encode .unpack) s fun m =>
    guarded (encode .unpack) [] s
      (State.setRes · (BitVec.ofNat _ (fromNibbles (unpack m (s.arg0.setWidth 8)))) 0)

end Sys2Proof.Machine
end

