-- ==== Sys2Proof/Machine/ScreenAddressing.lean ====
section
/-! DEFINITION. The screen address translator (42_screen_addressing.md R178, R179). -/

namespace Sys2Proof.Machine

/-- The two results of a translation; out of range raises AddressOutOfRange once (R177, R180;
60_exceptions.md R284). -/
def State.reportTranslation (t : Translation) (s : State) : State :=
  (s.flag .addressOutOfRange (if t.ok then 0 else 1)).setRes (BitVec.ofNat _ t.fst) (BitVec.ofNat _ t.snd)

/-- SAFWD (R178). -/
def execSafwd (s : State) : Host.Outcome State Fault Refusal :=
  withMode (encode .safwd) s fun m =>
    guarded (encode .safwd) [(!s.screen.cfgOk, .badConfig)] s
      (State.reportTranslation (s.screen.forward m s.arg0.toNat s.arg1.toNat))

/-- SAINV (R179). -/
def execSainv (s : State) : Host.Outcome State Fault Refusal :=
  withMode (encode .sainv) s fun m =>
    guarded (encode .sainv) [(!s.screen.cfgOk, .badConfig)] s
      (State.reportTranslation (s.screen.inverse m (s.arg0.setWidth _)))

end Sys2Proof.Machine
end

