-- ==== Sys2Proof/Machine/System.lean ====
section
/-! DEFINITION. System commands and resets (46_system.md R270, R271; 70_reset_and_hazards.md R320). -/

namespace Sys2Proof.Machine

/-- NOP (R270): ERR <- 0 and nothing else. -/
def execNop (s : State) : Host.Outcome State Fault Refusal :=
  guarded (encode .nop) [] s id

/-- Every register and both tables at their reset values; the local memories keep their contents and the
TILE store becomes unspecified (R271). -/
def State.softReset (s : State) : State :=
  { State.reset with
    pal := s.pal, img := s.img, fb := s.fb, out := s.out, map := s.map
    binding := s.binding, epoch := s.epoch, tileEpoch := s.tileEpoch + 1
    inReset := s.inReset, pending := s.pending, busData := s.busData }

/-- SRESET (R271). -/
def execSreset (s : State) : Host.Outcome State Fault Refusal :=
  guarded (encode .sreset) [] s State.softReset

/-- What releasing the reset input leaves (R320, 10_state.md R60): the reset table, with every local memory
unspecified anew. The build parameter and the host's remaining operations are not the MPP's to reset. -/
def State.hardReset (s : State) : State :=
  { State.reset with
    binding := s.binding, epoch := s.epoch + 1, tileEpoch := s.tileEpoch + 1, pending := s.pending }

end Sys2Proof.Machine
end

