-- ==== Sys2Proof/Machine/TileBoard.lean ====
section
/-! DEFINITION. The tile matcher (45_tile_board.md R242 to R249). -/

namespace Sys2Proof.Machine

/-- TCLR (R242). -/
def execTclr (s : State) : Host.Outcome State Fault Refusal :=
  guarded (encode .tclr) [] s fun s => s.setTable TileTable.empty

/-! ### TANALYZE -/

/-- The prechecks 2 to 7 of R243; precheck 1 is `withMode`. -/
def State.analyzeChecks (s : State) (m : GMode) (sl : Slot) : List Check :=
  let w := s.width.toNat
  let h := s.height.toNat
  let tw := s.tileW.toNat
  let th := s.tileH.toNat
  [ (w = 0 || h = 0 || w % m.ppb != 0, .invalidDimensions)
  , (tw = 0 || th = 0 || tw % m.ppb != 0, .invalidDimensions)
  , (w % tw != 0 || h % th != 0, .invalidDimensions)
  , (Config.tileMaxBytes < tw / m.ppb * th, .invalidDimensions)
  , (Config.fbCap < s.modeWidth m * h, .invalidDimensions)
  , ((s.fbLen.get sl).toNat != s.modeWidth m * h, .invalidDimensions) ]

/-- The geometry TANALYZE captures, with an empty catalogue (R241, R243). -/
def State.capturedGeometry (s : State) (m : GMode) : TileTable :=
  { mode := m, tw := s.tileW, th := s.tileH
    cols := BitVec.ofNat 16 (s.width.toNat / s.tileW.toNat)
    rows := BitVec.ofNat 16 (s.height.toNat / s.tileH.toNat)
    tbytes := BitVec.ofNat 16 (s.tileW.toNat / m.ppb * s.tileH.toNat)
    valid := true, sorted := false, ovf := false, entries := [] }

/-- Count one more occurrence of a content that an entry has. -/
def bumpTile (t : List Byte) : List TileEntry → List TileEntry
  | [] => []
  | e :: es => if e.content = t then { e with count := e.count + 1 } :: es else e :: bumpTile t es

/-- Register one cell's tile: count it, append it, or drop it when the table is full (R243, R244). The second
component counts the dropped cells. -/
def registerTile (acc : List TileEntry × Nat) (t : List Byte) : List TileEntry × Nat :=
  if (tileIndex t acc.1).isSome then (bumpTile t acc.1, acc.2)
  else if acc.1.length < Config.tileCap then (acc.1 ++ [{ content := t, count := 1 }], acc.2)
  else (acc.1, acc.2 + 1)

/-- The catalogue of a frame in a captured geometry and the number of dropped cells: one serial pass over the
cells in raster order (R243). -/
def State.scanTiles (s : State) (tb : TileTable) (sl : Slot) : List TileEntry × Nat :=
  ((List.range tb.cells).map (s.cellContent tb sl)).foldl registerTile ([], 0)

/-- The operation of TANALYZE (R243). -/
def State.analyze (m : GMode) (sl : Slot) (s : State) : State :=
  let tb := s.capturedGeometry m
  let r := s.scanTiles tb sl
  State.flag .capacityExceeded r.2
    { s.setTable { tb with entries := r.1, ovf := decide (0 < r.2) } with tovfCnt := satAdd s.tovfCnt r.2 }

/-- TANALYZE (R243). -/
def execTanalyze (sl : Slot) (s : State) : Host.Outcome State Fault Refusal :=
  withMode (encode (.tanalyze sl)) s fun m =>
    guarded (encode (.tanalyze sl)) (s.analyzeChecks m sl) s (State.analyze m sl)

/-! ### TREDUCE -/

/-- `dist(a, b)` of R245: the number of pixels whose palette index differs. -/
def tileDist (m : GMode) (a b : List Byte) : Nat :=
  ((a.zip b).map fun p => ((unpack m p.1).zip (unpack m p.2)).countP fun q => q.1 != q.2).sum

/-- The inner loop of R246 for one survivor: each later entry nearer than the threshold is merged into it and
deleted, the others stay in order. -/
def absorb (m : GMode) (thr : Nat) (e : TileEntry) : List TileEntry → TileEntry × List TileEntry
  | [] => (e, [])
  | x :: xs =>
    if tileDist m e.content x.content < thr then absorb m thr { e with count := e.count + x.count } xs
    else
      let r := absorb m thr e xs
      (r.1, x :: r.2)

/-- The outer loop of R246. The first argument bounds its turns; the table's length is enough, since each turn
passes one entry for good. -/
def reduceTiles (m : GMode) (thr : Nat) : Nat → List TileEntry → List TileEntry
  | 0, es => es
  | _ + 1, [] => []
  | n + 1, e :: es =>
    let r := absorb m thr e es
    r.1 :: reduceTiles m thr n r.2

/-- TREDUCE (R246). -/
def execTreduce (imm16 : BitVec 16) (s : State) : Host.Outcome State Fault Refusal :=
  guarded (encode (.treduce imm16)) [(!s.tb.valid || s.tb.sorted, .badState)] s fun s =>
    s.setTable { s.tb with entries := reduceTiles s.tb.mode imm16.toNat s.ntiles s.tb.entries }

/-! ### TSORT -/

/-- The entries by non-increasing count, ties in their old order (R247). -/
def sortTiles (es : List TileEntry) : List TileEntry :=
  es.insertionSort fun a b => b.count.toNat ≤ a.count.toNat

/-- TSORT (R247). -/
def execTsort (s : State) : Host.Outcome State Fault Refusal :=
  guarded (encode .tsort) [(!s.tb.valid, .badState)] s fun s =>
    (s.setTable { s.tb with entries := sortTiles s.tb.entries, sorted := true }).flag
      .capacityExceeded (if s.tb.ovf then 1 else 0)

/-! ### TLOOKUP and TMAP -/

/-- The prechecks that TLOOKUP and TMAP share (R248, R249). -/
def State.catalogueChecks (s : State) (sl : Slot) : List Check :=
  [ (!s.tb.valid, .badState)
  , ((s.fbLen.get sl).toNat != s.tb.cells * s.tb.tbytes.toNat, .invalidDimensions) ]

/-- The table position of a cell's tile, none on a miss (R248). -/
def State.cellIndex (s : State) (sl : Slot) (n : Nat) : Option Nat :=
  tileIndex (s.cellContent s.tb sl n) s.tb.entries

/-- TLOOKUP (R248). -/
def execTlookup (sl : Slot) (s : State) : Host.Outcome State Fault Refusal :=
  guarded (encode (.tlookup sl))
    (s.catalogueChecks sl ++ [(decide (s.tb.cells ≤ s.arg0.toNat), Err.invalidDimensions)]) s
    (State.reportLookup (s.cellIndex sl s.arg0.toNat))

/-- The table positions of every cell, in raster order (R249). -/
def State.cellIndices (s : State) (sl : Slot) : List (Option Nat) :=
  (List.range s.tb.cells).map (s.cellIndex sl)

/-- The operation of TMAP (R249). -/
def State.mapTiles (sl : Slot) (s : State) : State :=
  State.flag .notFound ((s.cellIndices sl).count none)
    { s with
      map := s.map.fill ((s.cellIndices sl).map fun r => BitVec.ofNat 8 (r.getD 0))
      mapLen := BitVec.ofNat 16 s.tb.cells }

/-- TMAP (R249). -/
def execTmap (sl : Slot) (s : State) : Host.Outcome State Fault Refusal :=
  guarded (encode (.tmap sl)) (s.catalogueChecks sl) s (State.mapTiles sl)

end Sys2Proof.Machine
end

