-- ==== Sys2Proof/Machine/Dispatch.lean ====
section
/-! DEFINITION. One arm per command of 30_encoding.md R113. -/

namespace Sys2Proof.Machine

def exec (i : Instr) (s : State) : Host.Outcome State Fault Refusal :=
  match i with
  | .nop => Sys2Proof.Machine.execNop s
  | .sreset => Sys2Proof.Machine.execSreset s
  | .plookup sl => Sys2Proof.Machine.execPlookup sl s
  | .pack => Sys2Proof.Machine.execPack s
  | .unpack => Sys2Proof.Machine.execUnpack s
  | .safwd => Sys2Proof.Machine.execSafwd s
  | .sainv => Sys2Proof.Machine.execSainv s
  | .encodeFrame sl => Sys2Proof.Machine.execEncode sl s
  | .decodeFrame sl => Sys2Proof.Machine.execDecode sl s
  | .dclr => Sys2Proof.Machine.execDclr s
  | .dadd val8 addr16 => Sys2Proof.Machine.execDadd val8 addr16 s
  | .diff => Sys2Proof.Machine.execDiff s
  | .diffi => Sys2Proof.Machine.execDiffi s
  | .marshal => Sys2Proof.Machine.execMarshal s
  | .unmarshal => Sys2Proof.Machine.execUnmarshal s
  | .tclr => Sys2Proof.Machine.execTclr s
  | .tanalyze sl => Sys2Proof.Machine.execTanalyze sl s
  | .treduce imm16 => Sys2Proof.Machine.execTreduce imm16 s
  | .tsort => Sys2Proof.Machine.execTsort s
  | .tlookup sl => Sys2Proof.Machine.execTlookup sl s
  | .tmap sl => Sys2Proof.Machine.execTmap sl s

end Sys2Proof.Machine
end

