-- ==== Sys2Proof/Machine/Registers.lean ====
section
/-! DEFINITION. The register map (10_state.md R44) and what the host reads from and writes to each register
(R21 to R45). CMD's write is in Bus.lean. -/

namespace Sys2Proof.Machine

/-- Word address of each register (R44). -/
def regAddr : Reg → Nat
  | .CMD => 0x00
  | .ERR => 0x01
  | .ERRCMD => 0x02
  | .FLAGS => 0x03
  | .ARG0 => 0x04
  | .ARG1 => 0x05
  | .RES0 => 0x06
  | .RES1 => 0x07
  | .MODE => 0x08
  | .WIDTH => 0x09
  | .HEIGHT => 0x0A
  | .COLORS => 0x0B
  | .CTRL => 0x0C
  | .LINEWIDTH => 0x0D
  | .ORIGIN => 0x0E
  | .PLACEX => 0x0F
  | .PLACEY => 0x10
  | .TILEW => 0x11
  | .TILEH => 0x12
  | .PALLEN .a => 0x13
  | .PALLEN .b => 0x14
  | .FBLEN .a => 0x15
  | .FBLEN .b => 0x16
  | .OUTLEN => 0x17
  | .MAPLEN => 0x18
  | .NFCNT => 0x19
  | .AOORCNT => 0x1A
  | .TOVFCNT => 0x1B
  | .DT_NITEMS => 0x1C
  | .DT_NADDR => 0x1D
  | .DT_SEL => 0x1E
  | .DT_ASEL => 0x1F
  | .DT_ITEM => 0x20
  | .DT_ADDR => 0x21
  | .TB_NTILES => 0x22
  | .TB_GEOM => 0x23
  | .TB_GRID => 0x24
  | .TB_INFO => 0x25
  | .TB_SEL => 0x26
  | .TB_COUNT => 0x27
  | .ID => 0x28
  | .PARAMS0 => 0x29
  | .PARAMS1 => 0x2A

/-- The registers in the order of the map, word addresses 0x00 to 0x2A (R44). -/
def regTable : List Reg :=
  [.CMD, .ERR, .ERRCMD, .FLAGS, .ARG0, .ARG1, .RES0, .RES1, .MODE, .WIDTH, .HEIGHT, .COLORS, .CTRL,
   .LINEWIDTH, .ORIGIN, .PLACEX, .PLACEY, .TILEW, .TILEH, .PALLEN .a, .PALLEN .b, .FBLEN .a, .FBLEN .b,
   .OUTLEN, .MAPLEN, .NFCNT, .AOORCNT, .TOVFCNT, .DT_NITEMS, .DT_NADDR, .DT_SEL, .DT_ASEL, .DT_ITEM,
   .DT_ADDR, .TB_NTILES, .TB_GEOM, .TB_GRID, .TB_INFO, .TB_SEL, .TB_COUNT, .ID, .PARAMS0, .PARAMS1]

/-- DT_ITEM: count in bits 31:16, byte in bits 7:0 of the selected item, 0 when there is none (R41). -/
def State.dtItemReg (s : State) : Word :=
  match s.dt[s.dtSel.toNat]? with
  | some it => it.count ++ (0#8 ++ it.byte)
  | none => 0

/-- DT_ADDR: the selected address of the selected item, 0 when there is no such item or address (R41). -/
def State.dtAddrReg (s : State) : Addr16 :=
  match s.dt[s.dtSel.toNat]? with
  | some it => if s.dtASel.toNat < it.count.toNat then it.addrs.getD s.dtASel.toNat 0 else 0
  | none => 0

/-- TB_COUNT: the count of the selected entry, 0 when there is none (R42). -/
def State.tbCountReg (s : State) : BitVec 16 :=
  match s.tb.entries[s.tbSel.toNat]? with
  | some e => e.count
  | none => 0

/-- The value of the captured mode in TB_INFO bits 1:0 (R42). -/
def modeBits : GMode → BitVec 2
  | .m0 => 0
  | .m1 => 1
  | .m2 => 2

/-- TB_INFO: MODE 1:0, VALID 8, SORTED 9, OVF 10, TBYTES 31:16 (R42). -/
def TileTable.info (tb : TileTable) : Word :=
  tb.tbytes ++ (0#5 ++ (BitVec.ofBool tb.ovf ++ (BitVec.ofBool tb.sorted ++ (BitVec.ofBool tb.valid ++
    (0#6 ++ modeBits tb.mode)))))

/-- PARAMS1: SA_BINDING in bit 0, TILE_CAP in 15:8, TILE_MAX_BYTES in 31:16 (R43). -/
def State.params1 (s : State) : Word :=
  BitVec.ofNat 16 Config.tileMaxBytes ++ (BitVec.ofNat 8 Config.tileCap ++
    (match s.binding with
      | .literal => 0#8
      | .interleaved => 1#8))

/-- What a HostRead of a register returns; bits above a field read 0 (R45). CMD reads 0 (R23). -/
def State.readReg (s : State) : Reg → Word
  | .CMD => 0
  | .ERR => s.err
  | .ERRCMD => s.errCmd
  | .FLAGS => zext32 s.flags
  | .ARG0 => s.arg0
  | .ARG1 => s.arg1
  | .RES0 => s.res0
  | .RES1 => s.res1
  | .MODE => zext32 s.mode
  | .WIDTH => zext32 s.width
  | .HEIGHT => zext32 s.height
  | .COLORS => zext32 s.colors
  | .CTRL => zext32 s.ctrl
  | .LINEWIDTH => zext32 s.lineWidth
  | .ORIGIN => zext32 s.origin
  | .PLACEX => zext32 s.placeX
  | .PLACEY => zext32 s.placeY
  | .TILEW => zext32 s.tileW
  | .TILEH => zext32 s.tileH
  | .PALLEN sl => zext32 (s.palLen.get sl)
  | .FBLEN sl => zext32 (s.fbLen.get sl)
  | .OUTLEN => zext32 s.outLen
  | .MAPLEN => zext32 s.mapLen
  | .NFCNT => s.nfCnt
  | .AOORCNT => s.aoorCnt
  | .TOVFCNT => s.tovfCnt
  | .DT_NITEMS => zext32 (BitVec.ofNat 9 s.dt.length)
  | .DT_NADDR => zext32 (BitVec.ofNat 16 (dtTotal s.dt))
  | .DT_SEL => zext32 s.dtSel
  | .DT_ASEL => zext32 s.dtASel
  | .DT_ITEM => s.dtItemReg
  | .DT_ADDR => zext32 s.dtAddrReg
  | .TB_NTILES => zext32 (BitVec.ofNat 8 s.ntiles)
  | .TB_GEOM => s.tb.th ++ s.tb.tw
  | .TB_GRID => s.tb.rows ++ s.tb.cols
  | .TB_INFO => s.tb.info
  | .TB_SEL => zext32 s.tbSel
  | .TB_COUNT => zext32 s.tbCountReg
  | .ID => 0x4D505031
  | .PARAMS0 => BitVec.ofNat 16 Config.bankSize ++ BitVec.ofNat 16 Config.bankStride
  | .PARAMS1 => s.params1

/-- What a HostWrite leaves in a register other than CMD: bits above the field are discarded (R45), FLAGS is
write-one-to-clear (R27), a read-only register ignores the write (20_memory.md R89). -/
def State.writeReg (s : State) (r : Reg) (v : Word) : State :=
  match r with
  | .FLAGS => { s with flags := s.flags &&& ~~~(v.setWidth 10) }
  | .ARG0 => { s with arg0 := v }
  | .ARG1 => { s with arg1 := v }
  | .MODE => { s with mode := v.setWidth 2 }
  | .WIDTH => { s with width := v.setWidth 16 }
  | .HEIGHT => { s with height := v.setWidth 16 }
  | .COLORS => { s with colors := v.setWidth 5 }
  | .CTRL => { s with ctrl := v.setWidth 2 }
  | .LINEWIDTH => { s with lineWidth := v.setWidth 16 }
  | .ORIGIN => { s with origin := v.setWidth _ }
  | .PLACEX => { s with placeX := v.setWidth 16 }
  | .PLACEY => { s with placeY := v.setWidth 16 }
  | .TILEW => { s with tileW := v.setWidth 16 }
  | .TILEH => { s with tileH := v.setWidth 16 }
  | .PALLEN sl => { s with palLen := s.palLen.set sl (v.setWidth 5) }
  | .FBLEN sl => { s with fbLen := s.fbLen.set sl (v.setWidth 16) }
  | .OUTLEN => { s with outLen := v.setWidth 17 }
  | .NFCNT => { s with nfCnt := v }
  | .AOORCNT => { s with aoorCnt := v }
  | .TOVFCNT => { s with tovfCnt := v }
  | .DT_SEL => { s with dtSel := v.setWidth 9 }
  | .DT_ASEL => { s with dtASel := v.setWidth 16 }
  | .TB_SEL => { s with tbSel := v.setWidth 8 }
  | .CMD | .ERR | .ERRCMD | .RES0 | .RES1 | .MAPLEN | .DT_NITEMS | .DT_NADDR | .DT_ITEM | .DT_ADDR
  | .TB_NTILES | .TB_GEOM | .TB_GRID | .TB_INFO | .TB_COUNT | .ID | .PARAMS0 | .PARAMS1 => s

end Sys2Proof.Machine
end

