-- ==== Sys2Proof/Machine/Bus.lean ====
section
/-! DEFINITION. The host's bus: address map (20_memory.md R82), HostRead and HostWrite (R83), the reset line
(70_reset_and_hazards.md R320), and the host-script lines (30_encoding.md R118). -/

namespace Sys2Proof.Machine

/-- What a word address names (R82). -/
inductive Place where
  | reg (r : Reg)
  | elem (m : Window) (i : Nat)
  | reserved
deriving DecidableEq, Repr

/-- First word address of each window (R82). -/
def windowBase : Window → Nat
  | .pal .a => 0x00040
  | .pal .b => 0x00050
  | .fb .a => 0x08000
  | .fb .b => 0x10000
  | .map => 0x18000
  | .out => 0x20000
  | .tile => 0x40000
  | .img .a => 0x80000
  | .img .b => 0xC0000

/-- The windows in address order (R82). -/
def windowTable : List Window :=
  [.pal .a, .pal .b, .fb .a, .fb .b, .map, .out, .tile, .img .a, .img .b]

/-- The address map (R82, 10_state.md R44): registers, windows, and everything else reserved. -/
def locate (wa : Nat) : Place :=
  match regTable.find? (fun r => regAddr r == wa) with
  | some r => .reg r
  | none =>
    match windowTable.find? (fun m => windowBase m ≤ wa && wa < windowBase m + m.size) with
    | some m => .elem m (wa - windowBase m)
    | none => .reserved

/-- The word a HostRead of a window element returns; a byte element is zero-extended (R83). -/
def State.readElem (s : State) (i : Nat) : Window → Word
  | .pal sl => s.palAt sl i
  | .img sl => s.imgAt sl i
  | .fb sl => zext32 (s.fbAt sl i)
  | .out => zext32 (s.outAt i)
  | .map => zext32 (s.mapAt i)
  | .tile => zext32 (s.tileAt (i / Config.tileMaxBytes) (i % Config.tileMaxBytes))

/-- What a HostWrite to a window element leaves; a byte element takes bits 7:0 (R83), the TILE window ignores
the write (R89). -/
def State.writeElem (s : State) (i : Nat) (v : Word) : Window → State
  | .pal sl => { s with pal := s.pal.set sl ((s.pal.get sl).set i v) }
  | .img sl => { s with img := s.img.set sl ((s.img.get sl).set i v) }
  | .fb sl => { s with fb := s.fb.set sl ((s.fb.get sl).set i (v.setWidth 8)) }
  | .out => { s with out := s.out.set i (v.setWidth 8) }
  | .map => { s with map := s.map.set i (v.setWidth 8) }
  | .tile => s

/-- HostRead (R83): the value goes to the host and nothing else changes (R90). -/
def hostRead (wa : BusAddr) (s : State) : Host.Outcome State Fault Refusal :=
  match locate wa.toNat with
  | .reg r => .next { s with busData := some (s.readReg r) }
  | .elem m i => .next { s with busData := some (s.readElem i m) }
  | .reserved => .fault (.busError wa)

/-- A write to CMD executes the word as one command (10_state.md R23); a word that is no command raises
IllegalCommand (30_encoding.md R114, R115). -/
def runCommand (w : Word) (s : State) : Host.Outcome State Fault Refusal :=
  match decode w with
  | .ok i => exec i s
  | .error _ => .next (s.raise .illegalCommand w)

/-- HostWrite (R83). -/
def hostWrite (wa : BusAddr) (v : Word) (s : State) : Host.Outcome State Fault Refusal :=
  match locate wa.toNat with
  | .reg .CMD => runCommand v { s with busData := none }
  | .reg r => .next ({ s with busData := none }.writeReg r v)
  | .elem m i => .next ({ s with busData := none }.writeElem i v m)
  | .reserved => .fault (.busError wa)

/-- The reset line (70_reset_and_hazards.md R320): its release leaves the reset state; its assertion only
stops bus operations from being accepted. -/
def resetLine (asserted : Bool) (s : State) : State :=
  if asserted then { s with inReset := true } else if s.inReset then s.hardReset else s

/-- One input. A bus operation is not accepted while reset is asserted (R320). -/
def runOp (op : HostOp) (s : State) : Host.Outcome State Fault Refusal :=
  match op with
  | .read wa => if s.inReset then .fault .heldInReset else hostRead wa s
  | .write wa v => if s.inReset then .fault .heldInReset else hostWrite wa v s
  | .resetLine asserted => .next (resetLine asserted s)

/-- One step: the host's next operation. With none to come the MPP is idle and keeps its state
(60_exceptions.md R299). -/
def stepHost (s : State) : Host.Outcome State Fault Refusal :=
  match s.pending with
  | [] => .next s
  | op :: rest => runOp op { s with pending := rest }

/-- Place a command write in front of the host's operations (log entry 1). -/
def State.pushCommand (s : State) (w : Word) : State :=
  { s with inReset := false, pending := .write (BitVec.ofNat _ (regAddr .CMD)) w :: s.pending }

/-- The bus operation a host-script line stands for (30_encoding.md R117, R118); none where the line is not
well formed. -/
def ScriptLine.toHostOp (l : ScriptLine) : Option HostOp :=
  if l.wellFormed then
    match l with
    | .cmd c => c.assemble.map fun i => .write (BitVec.ofNat _ (regAddr .CMD)) (encode i)
    | .wr r v => some (.write (BitVec.ofNat _ (regAddr r)) (BitVec.ofNat _ v))
    | .rd r => some (.read (BitVec.ofNat _ (regAddr r)))
    | .wm m i v => some (.write (BitVec.ofNat _ (windowBase m + i)) (BitVec.ofNat _ v))
    | .rm m i => some (.read (BitVec.ofNat _ (windowBase m + i)))
    | .clrf v => some (.write (BitVec.ofNat _ (regAddr .FLAGS)) (BitVec.ofNat _ v))
  else none

end Sys2Proof.Machine
end

