-- ==== Sys2Proof/Machine/Step.lean ====
section
/-! DEFINITION. One step of the machine, and where the host of the checks places a command. -/

namespace Sys2Proof.Machine

/-- One step: one input of the host (00_scope.md R13). -/
def step (s : State) : Host.Outcome State Fault Refusal := stepHost s

/-- The state whose next step runs the command in the lowest `nbits` bits of `w`, all higher bits 0: the MPP
fetches nothing (10_state.md R24), so the command is the host's next write to CMD (log entry 1). -/
def State.withFetchWord (s : State) (nbits w : Nat) : State := s.pushCommand (BitVec.ofNat _ (w % 2 ^ nbits))

end Sys2Proof.Machine
end

