-- ==== Sys2Proof/Safety.lean ====
section
/-! DEFINITION. What claims about runs are made of: the conditions under which a command is accepted
(43_frame_codec.md R190, 45_tile_board.md R243, R248, R249), and the invariants every operation keeps
(10_state.md R51, R57; 20_memory.md R93; 60_exceptions.md R286, R289). -/

namespace Sys2Proof.Machine

/-! ### Accepted configurations, spelled on the registers -/

/-- R190 tests 1, 4, 6, 8 and 9 pass, in mode `m`. -/
abbrev State.FrameOk (s : State) (m : GMode) : Prop :=
  s.gmode? = some m ∧
  (s.sprite = false → s.screen.cfgOk = true) ∧
  0 < s.width.toNat ∧ 0 < s.height.toNat ∧ s.width.toNat % m.ppb = 0 ∧
  (s.sprite = true → s.width.toNat / m.ppb * s.height.toNat ≤ Config.fbCap) ∧
  (s.sprite = false → s.width.toNat / m.ppb ≤ s.lineWidth.toNat ∧ s.height.toNat ≤ s.screen.rows)

/-- R190 tests 2 and 3 pass for one slot. -/
abbrev State.PaletteOk (s : State) (m : GMode) (sl : Slot) : Prop :=
  0 < s.colors.toNat ∧ s.colors.toNat ≤ m.ncol ∧
  0 < (s.palLen.get sl).toNat ∧ (s.palLen.get sl).toNat ≤ s.colors.toNat

/-- R190 test 7 passes. -/
abbrev State.ImageOk (s : State) : Prop := s.width.toNat * s.height.toNat ≤ Config.imgCap

/-- ENCODE's prechecks pass (R194). -/
abbrev State.EncodeAccepts (s : State) (m : GMode) (sl : Slot) : Prop :=
  s.FrameOk m ∧ s.PaletteOk m sl ∧ s.ImageOk

/-- DECODE's prechecks pass (R195). -/
abbrev State.DecodeAccepts (s : State) (m : GMode) (sl : Slot) : Prop :=
  s.EncodeAccepts m sl ∧ (s.fbLen.get sl).toNat = s.frameLen m

/-- DIFF's prechecks pass (44_delta_engine.md R218). -/
abbrev State.DiffAccepts (s : State) (m : GMode) : Prop :=
  s.FrameOk m ∧ s.fbLen.a = s.fbLen.b ∧ s.fbLen.a.toNat = s.frameLen m

/-- DIFFI's prechecks pass (44_delta_engine.md R219). -/
abbrev State.DiffiAccepts (s : State) (m : GMode) : Prop :=
  s.FrameOk m ∧ s.PaletteOk m .a ∧ s.PaletteOk m .b ∧ s.ImageOk

/-- TANALYZE's prechecks pass (45_tile_board.md R243). -/
abbrev State.AnalyzeAccepts (s : State) (m : GMode) (sl : Slot) : Prop :=
  s.gmode? = some m ∧
  0 < s.width.toNat ∧ 0 < s.height.toNat ∧ s.width.toNat % m.ppb = 0 ∧
  0 < s.tileW.toNat ∧ 0 < s.tileH.toNat ∧ s.tileW.toNat % m.ppb = 0 ∧
  s.width.toNat % s.tileW.toNat = 0 ∧ s.height.toNat % s.tileH.toNat = 0 ∧
  s.tileW.toNat / m.ppb * s.tileH.toNat ≤ Config.tileMaxBytes ∧
  s.width.toNat / m.ppb * s.height.toNat ≤ Config.fbCap ∧
  (s.fbLen.get sl).toNat = s.width.toNat / m.ppb * s.height.toNat

/-- The prechecks TLOOKUP and TMAP share pass (45_tile_board.md R248, R249). -/
abbrev State.CatalogueAccepts (s : State) (sl : Slot) : Prop :=
  s.tb.valid = true ∧ (s.fbLen.get sl).toNat = s.tb.cols.toNat * s.tb.rows.toNat * s.tb.tbytes.toNat

/-! ### Invariants -/

/-- Every local memory is in its canonical form. -/
abbrev State.MemoriesCanonical (s : State) : Prop :=
  (∀ sl, (s.pal.get sl).wf = true ∧ (s.img.get sl).wf = true ∧ (s.fb.get sl).wf = true) ∧
  s.out.wf = true ∧ s.map.wf = true

/-- Every listed index is below a bound. -/
abbrev Memory.Below {w : Nat} (cap : Nat) (m : Memory w) : Prop := ∀ c ∈ m, c.1 < cap

/-- No local memory holds an element outside its capacity (20_memory.md R93). -/
abbrev State.MemoriesWithinCapacity (s : State) : Prop :=
  (∀ sl, (s.pal.get sl).Below Config.palEntries ∧ (s.img.get sl).Below Config.imgCap ∧
    (s.fb.get sl).Below Config.fbCap) ∧
  s.out.Below Config.outCap ∧ s.map.Below Config.mapCap

/-- R51 (a), (b), (c): counts are the lengths of non-empty address lists, byte values are distinct, and the
total is within DT_ADDR_CAP. -/
abbrev DeltaTableOk (dt : List DtItem) : Prop :=
  (∀ it ∈ dt, it.count.toNat = it.addrs.length ∧ 1 ≤ it.addrs.length) ∧
  (dt.map DtItem.byte).Nodup ∧
  dtTotal dt ≤ Config.dtAddrCap

/-- R56 and R57 (a), (b), (d): at most TILE_CAP entries of tb bytes each, distinct contents, counts at least 1,
non-increasing counts once sorted; an invalid table is the empty one; the counts and the cells fit the frame
the table was made from. -/
abbrev TileTableOk (tb : TileTable) : Prop :=
  tb.entries.length ≤ Config.tileCap ∧
  (tb.entries.map TileEntry.content).Nodup ∧
  (∀ e ∈ tb.entries, 1 ≤ e.count.toNat ∧ e.content.length = tb.tbytes.toNat) ∧
  (tb.entries.map fun e => e.count.toNat).sum ≤ Config.fbCap ∧
  (tb.sorted = true → tb.entries.Pairwise fun e f => f.count.toNat ≤ e.count.toNat) ∧
  (tb.valid = false → tb = TileTable.empty) ∧
  (tb.valid = true → 1 ≤ tb.tbytes.toNat) ∧
  tb.cells * tb.tbytes.toNat ≤ Config.fbCap

/-- ERR is one fatal code and nothing else (R286), or event bits and code 0 (R289). NotFound and
AddressOutOfRange are never reported in ERR.CODE (R281). -/
abbrev State.ErrReportOk (s : State) : Prop :=
  (∃ e : Err, e ≠ .notFound ∧ e ≠ .addressOutOfRange ∧ s.err = BitVec.ofNat 32 e.code) ∨
  s.err &&& ~~~0x00070000#32 = 0

/-- All of it. -/
abbrev State.Inv (s : State) : Prop :=
  s.MemoriesCanonical ∧ s.MemoriesWithinCapacity ∧ DeltaTableOk s.dt ∧ TileTableOk s.tb ∧ s.ErrReportOk

/-- ERR.CODE (10_state.md R25). -/
def State.errCode (s : State) : BitVec 8 := s.err.extractLsb' 0 8

/-! ### Spec-side readings that claims are stated with -/

/-- The pixel-group positions (g, y) of a frame in raster order (00_scope.md R11). -/
def State.rasterGroups (s : State) (m : GMode) : List (Nat × Nat) :=
  (List.range s.height.toNat).flatMap fun y => (List.range (s.width.toNat / m.ppb)).map fun g => (g, y)

/-- Byte column and row of the screen at which the group (g, y) of a compared frame is placed
(44_delta_engine.md R217). -/
def State.placed (s : State) (m : GMode) (p : Nat × Nat) : Nat × Nat :=
  ((s.placeX.toNat + p.1 * m.ppb) / m.ppb, s.placeY.toNat + p.2)

/-- The group is placed outside an addressed screen (44_delta_engine.md R217). -/
def State.placedOutside (s : State) (m : GMode) (p : Nat × Nat) : Bool :=
  !s.sprite && !s.screen.inRange (s.placed m p).1 (s.placed m p).2

/-- The target address of a changed group (44_delta_engine.md R217). -/
def State.placedAddress (s : State) (m : GMode) (p : Nat × Nat) : Addr16 :=
  if s.sprite then BitVec.ofNat 16 (p.2 * (s.width.toNat / m.ppb) + p.1)
  else if s.placedOutside m p then s.origin
  else s.origin + BitVec.ofNat 16 (s.screen.offset (s.placed m p).1 (s.placed m p).2)

/-- The width of the field of a host-writable register other than FLAGS; none for the others (10_state.md R44). -/
def rwWidth : Reg → Option Nat
  | .ARG0 | .ARG1 | .NFCNT | .AOORCNT | .TOVFCNT => some 32
  | .WIDTH | .HEIGHT | .LINEWIDTH | .ORIGIN | .PLACEX | .PLACEY | .TILEW | .TILEH | .FBLEN _ | .DT_ASEL => some 16
  | .MODE | .CTRL => some 2
  | .COLORS | .PALLEN _ => some 5
  | .OUTLEN => some 17
  | .DT_SEL => some 9
  | .TB_SEL => some 8
  | .CMD | .ERR | .ERRCMD | .FLAGS | .RES0 | .RES1 | .MAPLEN | .DT_NITEMS | .DT_NADDR | .DT_ITEM | .DT_ADDR
  | .TB_NTILES | .TB_GEOM | .TB_GRID | .TB_INFO | .TB_COUNT | .ID | .PARAMS0 | .PARAMS1 => none

/-- The pixel (x, y) of the frame a slot's buffer holds, as an index (43_frame_codec.md R195). -/
def State.frameIndexAt (s : State) (m : GMode) (sl : Slot) (x y : Nat) : Nat :=
  unpackAt m (s.fbAt sl (s.loc m (x / m.ppb) y)) (x % m.ppb)

end Sys2Proof.Machine
end

