-- ==== Sys2Proof/Certificates/Slice0/Obligations.lean ====
section
/-! DEFINITION. The statements for the provers. Each docstring names the rule of the spec it formalises, or says
that it rests on a choice of the model. -/

open Sys2Proof Sys2Proof.Machine

/-! ### Encoding -/

/-- 30_encoding.md R110 to R114: the decoder gives every command back from its word, at every operand value, and a
word that decodes is the word of the command it decodes to, so no bit of it is ignored. -/
def Obligations.DecodeAndEncodeAgree : Prop :=
  (∀ i : Instr, decode (encode i) = .ok i) ∧ ∀ (w : Word) (i : Instr), decode w = .ok i → encode i = w

/-- 30_encoding.md R113: a word of every row of the table, written out from its opcode and format (R111, R112); R114,
R117. -/
def Obligations.ListedWordsDecode : Prop :=
  decode 0x00000000 = .ok .nop ∧ decode 0x01000000 = .ok .sreset ∧
  decode 0x10000001 = .ok (.plookup .b) ∧ decode 0x10000000 = .ok (.plookup .a) ∧
  decode 0x20000000 = .ok .pack ∧ decode 0x21000000 = .ok .unpack ∧
  decode 0x30000000 = .ok .safwd ∧ decode 0x31000000 = .ok .sainv ∧
  decode 0x40000001 = .ok (.encodeFrame .b) ∧ decode 0x41000001 = .ok (.decodeFrame .b) ∧
  decode 0x50000000 = .ok .dclr ∧ decode 0x513FC050 = .ok (.dadd 0x3F 0xC050) ∧
  decode 0x52000000 = .ok .diff ∧ decode 0x53000000 = .ok .diffi ∧
  decode 0x54000000 = .ok .marshal ∧ decode 0x55000000 = .ok .unmarshal ∧
  decode 0x60000000 = .ok .tclr ∧ decode 0x61000001 = .ok (.tanalyze .b) ∧
  decode 0x62000003 = .ok (.treduce 3) ∧ decode 0x63000000 = .ok .tsort ∧
  decode 0x64000001 = .ok (.tlookup .b) ∧ decode 0x65000001 = .ok (.tmap .b) ∧
  decode 0x20000001 = .error .mustBeZeroBitSet ∧ decode 0xFF000000 = .error .unassignedOpcode

/-- 30_encoding.md R114, R115: a word of no command latches itself in ERRCMD, sets ERR.CODE to 7 and FLAGS.ILLC,
and changes nothing else; words with a set must-be-zero bit and the listed opcodes belong to no command. -/
def Obligations.IllegalWordReports : Prop :=
  (∀ (w : Word) (s : State), (∀ i : Instr, encode i ≠ w) →
    runCommand w s = .next { s with err := 7, errCmd := w, flags := s.flags ||| 0x040 }) ∧
  (∀ (w : Word) (row : Mnemonic) (i : Instr), row.opcode = w.extractLsb' 24 8 →
    w.extractLsb' 0 24 &&& row.format.zeroBits ≠ 0 → encode i ≠ w) ∧
  ∀ (w : Word) (i : Instr),
    (let op := (w.extractLsb' 24 8).toNat
     (0x02 ≤ op ∧ op ≤ 0x0F) ∨ (0x11 ≤ op ∧ op ≤ 0x1F) ∨ (0x22 ≤ op ∧ op ≤ 0x2F) ∨ (0x32 ≤ op ∧ op ≤ 0x3F) ∨
     (0x42 ≤ op ∧ op ≤ 0x4F) ∨ (0x56 ≤ op ∧ op ≤ 0x5F) ∨ (0x66 ≤ op ∧ op ≤ 0xFF)) → encode i ≠ w

/-! ### The step and the bus -/

/-- 00_scope.md R13, 60_exceptions.md R299: a step is the next pending operation on the state without it, and with none
the state stays. 10_state.md R23, 20_memory.md R83: outside reset a read and a write go to the bus, a write to CMD
executes the written word, and where it is a command's word the step is that command. The list of pending operations
and the read-back word are the model's own (log entries 1, 2, 3). -/
def Obligations.StepRunsDecodedCommand : Prop :=
  (∀ (s : State) (op : HostOp) (rest : List HostOp), s.pending = op :: rest →
    step s = runOp op { s with pending := rest }) ∧
  (∀ s : State, s.pending = [] → step s = .next s) ∧
  (∀ (s : State) (wa : BusAddr) (v : Word), s.inReset = false →
    runOp (.read wa) s = hostRead wa s ∧ runOp (.write wa v) s = hostWrite wa v s) ∧
  (∀ (s : State) (w : Word), hostWrite 0x00000 w s = runCommand w { s with busData := none }) ∧
  (∀ (s : State) (w : Word) (i : Instr) (rest : List HostOp), s.inReset = false →
    s.pending = .write 0x00000 w :: rest → decode w = .ok i →
    step s = exec i { s with pending := rest, busData := none }) ∧
  ∀ (s : State) (i : Instr),
    step (s.withFetchWord 32 (encode i).toNat) = exec i { s with inReset := false, busData := none }

/-- 20_memory.md R82, R88, R90: an access to a reserved address is answered with a bus error, which the model takes
as a fault of the run (log entry 10); every other address answers a read and a write, and a read changes nothing
but the model's `busData` (log entry 2). 20_memory.md R83, 10_state.md R23, R45, R53: what a read of each register and
of each window element returns; the read-out registers of the tables are in `TableReadOut`, the constants in
`IdentificationConstants`. -/
def Obligations.BusAccessesAnswer : Prop :=
  (∀ (wa : BusAddr) (v : Word) (s : State), s.inReset = false →
    let reserved := (0x2B ≤ wa.toNat ∧ wa.toNat ≤ 0x3F) ∨ (0x60 ≤ wa.toNat ∧ wa.toNat ≤ 0x7FFF) ∨
      (0x30400 ≤ wa.toNat ∧ wa.toNat ≤ 0x3FFFF) ∨ (0x5FE00 ≤ wa.toNat ∧ wa.toNat ≤ 0x7FFFF)
    (reserved → runOp (.read wa) s = .fault (.busError wa) ∧ runOp (.write wa v) s = .fault (.busError wa)) ∧
    (¬ reserved → (∃ r : Word, runOp (.read wa) s = .next { s with busData := some r }) ∧
      ∃ t, runOp (.write wa v) s = .next t)) ∧
  (∀ s : State, s.inReset = false →
    (∀ r : Reg, runOp (.read (BitVec.ofNat 20 (regAddr r))) s = .next { s with busData := some (s.readReg r) }) ∧
    ∀ (m : Window) (i : Nat), i < m.size →
      runOp (.read (BitVec.ofNat 20 (windowBase m + i))) s = .next { s with busData := some (s.readElem i m) }) ∧
  ∀ s : State,
    (s.readReg .CMD = 0 ∧ s.readReg .ERR = s.err ∧ s.readReg .ERRCMD = s.errCmd ∧ s.readReg .FLAGS = zext32 s.flags ∧
      s.readReg .ARG0 = s.arg0 ∧ s.readReg .ARG1 = s.arg1 ∧ s.readReg .RES0 = s.res0 ∧ s.readReg .RES1 = s.res1 ∧
      s.readReg .MODE = zext32 s.mode ∧ s.readReg .WIDTH = zext32 s.width ∧ s.readReg .HEIGHT = zext32 s.height ∧
      s.readReg .COLORS = zext32 s.colors ∧ s.readReg .CTRL = zext32 s.ctrl ∧
      s.readReg .LINEWIDTH = zext32 s.lineWidth ∧ s.readReg .ORIGIN = zext32 s.origin ∧
      s.readReg .PLACEX = zext32 s.placeX ∧ s.readReg .PLACEY = zext32 s.placeY ∧
      s.readReg .TILEW = zext32 s.tileW ∧ s.readReg .TILEH = zext32 s.tileH ∧
      s.readReg (.PALLEN .a) = zext32 s.palLen.a ∧ s.readReg (.PALLEN .b) = zext32 s.palLen.b ∧
      s.readReg (.FBLEN .a) = zext32 s.fbLen.a ∧ s.readReg (.FBLEN .b) = zext32 s.fbLen.b ∧
      s.readReg .OUTLEN = zext32 s.outLen ∧ s.readReg .MAPLEN = zext32 s.mapLen ∧
      s.readReg .NFCNT = s.nfCnt ∧ s.readReg .AOORCNT = s.aoorCnt ∧ s.readReg .TOVFCNT = s.tovfCnt ∧
      s.readReg .DT_SEL = zext32 s.dtSel ∧ s.readReg .DT_ASEL = zext32 s.dtASel ∧
      s.readReg .TB_SEL = zext32 s.tbSel) ∧
    (∀ (sl : Slot) (i : Nat), s.readElem i (.pal sl) = s.palAt sl i ∧ s.readElem i (.img sl) = s.imgAt sl i ∧
      s.readElem i (.fb sl) = zext32 (s.fbAt sl i)) ∧
    (∀ i, s.readElem i .out = zext32 (s.outAt i) ∧ s.readElem i .map = zext32 (s.mapAt i)) ∧
    ∀ t j, j < 512 → s.readElem (512 * t + j) .tile = zext32 (s.tileAt t j)

/-- 10_state.md R44: every register answers at its word address of the register map. 20_memory.md R82: every element
of every window answers at its word address of the address map. Both maps are spelled here. -/
def Obligations.AddressMapPlaces : Prop :=
  (let registers : List (Reg × Nat) := [
      (.CMD, 0x00), (.ERR, 0x01), (.ERRCMD, 0x02), (.FLAGS, 0x03), (.ARG0, 0x04), (.ARG1, 0x05),
      (.RES0, 0x06), (.RES1, 0x07), (.MODE, 0x08), (.WIDTH, 0x09), (.HEIGHT, 0x0A), (.COLORS, 0x0B),
      (.CTRL, 0x0C), (.LINEWIDTH, 0x0D), (.ORIGIN, 0x0E), (.PLACEX, 0x0F), (.PLACEY, 0x10),
      (.TILEW, 0x11), (.TILEH, 0x12), (.PALLEN .a, 0x13), (.PALLEN .b, 0x14), (.FBLEN .a, 0x15),
      (.FBLEN .b, 0x16), (.OUTLEN, 0x17), (.MAPLEN, 0x18), (.NFCNT, 0x19), (.AOORCNT, 0x1A),
      (.TOVFCNT, 0x1B), (.DT_NITEMS, 0x1C), (.DT_NADDR, 0x1D), (.DT_SEL, 0x1E), (.DT_ASEL, 0x1F),
      (.DT_ITEM, 0x20), (.DT_ADDR, 0x21), (.TB_NTILES, 0x22), (.TB_GEOM, 0x23), (.TB_GRID, 0x24),
      (.TB_INFO, 0x25), (.TB_SEL, 0x26), (.TB_COUNT, 0x27), (.ID, 0x28), (.PARAMS0, 0x29),
      (.PARAMS1, 0x2A)]
    ∀ r : Reg, ∃ a, (r, a) ∈ registers ∧ regAddr r = a ∧ locate a = .reg r) ∧
  let windows : List (Window × Nat × Nat) := [
    (.pal .a, 0x00040, 16), (.pal .b, 0x00050, 16), (.fb .a, 0x08000, 0x8000), (.fb .b, 0x10000, 0x8000),
    (.map, 0x18000, 0x8000), (.out, 0x20000, 0x10400), (.tile, 0x40000, 0x1FE00), (.img .a, 0x80000, 0x40000),
    (.img .b, 0xC0000, 0x40000)]
  ∀ m : Window, ∃ base size, (m, base, size) ∈ windows ∧ windowBase m = base ∧ m.size = size ∧
    base + size ≤ 2 ^ 20 ∧ ∀ i < size, locate (base + i) = .elem m i

/-- 20_memory.md R83, R95: a write to a writable window element is returned by the next read of it, a byte element
keeping bits 7:0 only, and leaves every other element of the local memories as it was. -/
def Obligations.ElementWriteThenRead : Prop :=
  ∀ (m : Window) (i : Nat) (v : Word) (s : State), m ≠ .tile → i < m.size →
    ∃ t, hostWrite (BitVec.ofNat 20 (windowBase m + i)) v s = .next t ∧
      t = { s with pal := t.pal, img := t.img, fb := t.fb, out := t.out, map := t.map, busData := none } ∧
      t.readElem i m = (match m with
        | .pal _ | .img _ => v
        | .fb _ | .out | .map | .tile => v &&& 0xFF) ∧
      ∀ (m' : Window) (j : Nat), (m', j) ≠ (m, i) → t.readElem j m' = s.readElem j m'

/-- 20_memory.md R89: a HostWrite to a read-only register or to the TILE window completes normally and has no
effect (the model clears `busData`, log entry 2). -/
def Obligations.ReadOnlyWritesAreIgnored : Prop :=
  (∀ (r : Reg) (v : Word) (s : State),
    r ∈ [.ERR, .ERRCMD, .RES0, .RES1, .MAPLEN, .DT_NITEMS, .DT_NADDR, .DT_ITEM, .DT_ADDR, .TB_NTILES, .TB_GEOM,
      .TB_GRID, .TB_INFO, .TB_COUNT, .ID, .PARAMS0, .PARAMS1] →
    hostWrite (BitVec.ofNat 20 (regAddr r)) v s = .next { s with busData := none }) ∧
  ∀ (i : Nat) (v : Word) (s : State), i < 255 * 512 →
    hostWrite (BitVec.ofNat 20 (0x40000 + i)) v s = .next { s with busData := none }

/-- 10_state.md R44, R45, 20_memory.md R83, R90: a host-writable register stores exactly the bits of its field, and a
read returns them with zeros above. Every other register, table and memory is as before: one clause per read-write
register, at its word address (a write clears the model's `busData`, log entry 2). FLAGS and CMD have their own
statements. -/
def Obligations.RegisterStoresItsField : Prop :=
  (∀ (r : Reg) (n : Nat) (v : Word) (s : State), rwWidth r = some n →
    ∃ t, hostWrite (BitVec.ofNat 20 (regAddr r)) v s = .next t ∧
      hostRead (BitVec.ofNat 20 (regAddr r)) t = .next { t with busData := some (BitVec.ofNat 32 (v.toNat % 2 ^ n)) }) ∧
  ∀ (v : Word) (s : State),
    hostWrite 0x00004 v s = .next { s with busData := none, arg0 := v } ∧
    hostWrite 0x00005 v s = .next { s with busData := none, arg1 := v } ∧
    hostWrite 0x00008 v s = .next { s with busData := none, mode := v.extractLsb' 0 2 } ∧
    hostWrite 0x00009 v s = .next { s with busData := none, width := v.extractLsb' 0 16 } ∧
    hostWrite 0x0000A v s = .next { s with busData := none, height := v.extractLsb' 0 16 } ∧
    hostWrite 0x0000B v s = .next { s with busData := none, colors := v.extractLsb' 0 5 } ∧
    hostWrite 0x0000C v s = .next { s with busData := none, ctrl := v.extractLsb' 0 2 } ∧
    hostWrite 0x0000D v s = .next { s with busData := none, lineWidth := v.extractLsb' 0 16 } ∧
    hostWrite 0x0000E v s = .next { s with busData := none, origin := v.extractLsb' 0 16 } ∧
    hostWrite 0x0000F v s = .next { s with busData := none, placeX := v.extractLsb' 0 16 } ∧
    hostWrite 0x00010 v s = .next { s with busData := none, placeY := v.extractLsb' 0 16 } ∧
    hostWrite 0x00011 v s = .next { s with busData := none, tileW := v.extractLsb' 0 16 } ∧
    hostWrite 0x00012 v s = .next { s with busData := none, tileH := v.extractLsb' 0 16 } ∧
    hostWrite 0x00013 v s = .next { s with busData := none, palLen := { s.palLen with a := v.extractLsb' 0 5 } } ∧
    hostWrite 0x00014 v s = .next { s with busData := none, palLen := { s.palLen with b := v.extractLsb' 0 5 } } ∧
    hostWrite 0x00015 v s = .next { s with busData := none, fbLen := { s.fbLen with a := v.extractLsb' 0 16 } } ∧
    hostWrite 0x00016 v s = .next { s with busData := none, fbLen := { s.fbLen with b := v.extractLsb' 0 16 } } ∧
    hostWrite 0x00017 v s = .next { s with busData := none, outLen := v.extractLsb' 0 17 } ∧
    hostWrite 0x00019 v s = .next { s with busData := none, nfCnt := v } ∧
    hostWrite 0x0001A v s = .next { s with busData := none, aoorCnt := v } ∧
    hostWrite 0x0001B v s = .next { s with busData := none, tovfCnt := v } ∧
    hostWrite 0x0001E v s = .next { s with busData := none, dtSel := v.extractLsb' 0 9 } ∧
    hostWrite 0x0001F v s = .next { s with busData := none, dtASel := v.extractLsb' 0 16 } ∧
    hostWrite 0x00026 v s = .next { s with busData := none, tbSel := v.extractLsb' 0 8 }

/-- 10_state.md R27: a HostWrite of v to FLAGS clears exactly the bits that are 1 in v[9:0] and sets none. -/
def Obligations.FlagsAreWriteOneToClear : Prop :=
  ∀ (v : Word) (s : State), ∃ t, hostWrite 0x00003 v s = .next t ∧ t = { s with flags := t.flags, busData := none } ∧
    ∀ k < 10, t.flags.getLsbD k = (s.flags.getLsbD k && !v.getLsbD k)

/-- 10_state.md R41, R42, R53: the read-out registers of the two tables, for tables that keep the rules of R51, R56
and R57. -/
def Obligations.TableReadOut : Prop :=
  (∀ s : State, DeltaTableOk s.dt →
    (s.readReg .DT_NITEMS).toNat = s.dt.length ∧ (s.readReg .DT_NADDR).toNat = dtTotal s.dt ∧
    (∀ it, s.dt[s.dtSel.toNat]? = some it →
      ((s.readReg .DT_ITEM).extractLsb' 0 8) = it.byte ∧ ((s.readReg .DT_ITEM).extractLsb' 8 8) = 0 ∧
      ((s.readReg .DT_ITEM).extractLsb' 16 16) = it.count ∧
      (∀ a, it.addrs[s.dtASel.toNat]? = some a → s.readReg .DT_ADDR = zext32 a) ∧
      (it.count.toNat ≤ s.dtASel.toNat → s.readReg .DT_ADDR = 0)) ∧
    (s.dt.length ≤ s.dtSel.toNat → s.readReg .DT_ITEM = 0 ∧ s.readReg .DT_ADDR = 0)) ∧
  ∀ s : State, TileTableOk s.tb →
    (s.readReg .TB_NTILES).toNat = s.tb.entries.length ∧
    (s.readReg .TB_GEOM).extractLsb' 0 16 = s.tb.tw ∧ (s.readReg .TB_GEOM).extractLsb' 16 16 = s.tb.th ∧
    (s.readReg .TB_GRID).extractLsb' 0 16 = s.tb.cols ∧ (s.readReg .TB_GRID).extractLsb' 16 16 = s.tb.rows ∧
    ((s.readReg .TB_INFO).extractLsb' 0 2).toNat = (match s.tb.mode with
      | .m0 => 0
      | .m1 => 1
      | .m2 => 2) ∧
    (s.readReg .TB_INFO).extractLsb' 2 6 = 0 ∧
    (s.readReg .TB_INFO).getLsbD 8 = s.tb.valid ∧ (s.readReg .TB_INFO).getLsbD 9 = s.tb.sorted ∧
    (s.readReg .TB_INFO).getLsbD 10 = s.tb.ovf ∧ (s.readReg .TB_INFO).extractLsb' 11 5 = 0 ∧
    (s.readReg .TB_INFO).extractLsb' 16 16 = s.tb.tbytes ∧
    (∀ e, s.tb.entries[s.tbSel.toNat]? = some e → s.readReg .TB_COUNT = zext32 e.count) ∧
    (s.tb.entries.length ≤ s.tbSel.toNat → s.readReg .TB_COUNT = 0) ∧
    ∀ t j, (e : TileEntry) → s.tb.entries[t]? = some e → j < s.tb.tbytes.toNat → e.content[j]? = some (s.tileAt t j)

/-- 10_state.md R43: the identification registers, for both values of SA_BINDING. -/
def Obligations.IdentificationConstants : Prop :=
  ∀ s : State, s.readReg .ID = 0x4D505031 ∧ s.readReg .PARAMS0 = 0x40000800 ∧
    s.readReg .PARAMS1 = (match s.binding with
      | .literal => 0x0200FF00
      | .interleaved => 0x0200FF01)

/-! ### Reset -/

/-- 10_state.md R60, 70_reset_and_hazards.md R320, R324: after reset every register reads 0 but the constants, both
tables are empty, and every local memory element holds an unknown value. That the unknown values are those of
epoch 0 is the model's (log entries 4, 6). -/
def Obligations.ResetTable : Prop :=
  (∀ r : Reg, r ≠ .ID → r ≠ .PARAMS0 → r ≠ .PARAMS1 → State.reset.readReg r = 0) ∧
  State.reset.dt = [] ∧ State.reset.tb = TileTable.empty ∧
  (∀ sl i, State.reset.palAt sl i = Config.unwritten 32 0 (.pal sl) i ∧
    State.reset.imgAt sl i = Config.unwritten 32 0 (.img sl) i ∧
    State.reset.fbAt sl i = Config.unwritten 8 0 (.fb sl) i) ∧
  (∀ i, State.reset.outAt i = Config.unwritten 8 0 .out i ∧ State.reset.mapAt i = Config.unwritten 8 0 .map i) ∧
  ∀ t j, State.reset.tileAt t j = Config.unwritten 8 0 .tile (512 * t + j)

/-- 70_reset_and_hazards.md R320: no bus operation is accepted while reset is asserted, and its release leaves
the reset table with every local memory unspecified anew. That the line is an input of the model, and the fault,
are the model's (log entry 5). -/
def Obligations.HardwareReset : Prop :=
  (∀ (s : State) (wa : BusAddr) (v : Word), s.inReset = true →
    runOp (.read wa) s = .fault .heldInReset ∧ runOp (.write wa v) s = .fault .heldInReset) ∧
  (∀ s : State, runOp (.resetLine true) s = .next { s with inReset := true }) ∧
  ∀ s : State, s.inReset = true → runOp (.resetLine false) s = .next
    { State.reset with
      binding := s.binding, epoch := s.epoch + 1, tileEpoch := s.tileEpoch + 1, pending := s.pending }

/-- 46_system.md R270, 44_delta_engine.md R215: NOP writes ERR <- 0 and nothing else; DCLR empties DT and changes
nothing else but ERR. -/
def Obligations.NopAndDclr : Prop :=
  encode .nop = 0x00000000 ∧ encode .dclr = 0x50000000 ∧
  ∀ s : State, exec .nop s = .next { s with err := 0 } ∧ exec .dclr s = .next { s with err := 0, dt := [] }

/-- 46_system.md R271: SRESET gives every register and both tables their reset values and keeps PAL, IMG, FB, OUT
and MAP. 45_tile_board.md R242: TCLR empties TB with its captured geometry and condition bits, and changes nothing
else but ERR. The model's own fields stay, but the TILE store becomes unspecified (log entry 6). That SRESET sets ARG0
and ARG1 to 0 is the model's reading of R271 against 10_state.md R21, which says that no command writes them (log
entry 15). -/
def Obligations.SresetAndTclr : Prop :=
  encode .sreset = 0x01000000 ∧ encode .tclr = 0x60000000 ∧
  ∀ s : State,
    exec .sreset s = .next { State.reset with
      pal := s.pal, img := s.img, fb := s.fb, out := s.out, map := s.map
      binding := s.binding, epoch := s.epoch, tileEpoch := s.tileEpoch + 1
      inReset := s.inReset, pending := s.pending, busData := s.busData } ∧
    exec .tclr s = .next { s with err := 0, tb := TileTable.empty, tileEpoch := s.tileEpoch + 1 }

/-! ### Reports of every command -/

/-- 60_exceptions.md R287: what flagging an event does, and that flagging it n + 1 times in one operation is flagging
it n times and once more, so the model's counted form is the pseudocode's repeated one (log entry 12). -/
def Obligations.FlaggedEvent : Prop :=
  (∀ s : State,
    s.flag .notFound 1 = { s with
      flags := s.flags ||| 0x001, err := s.err ||| 0x00010000
      nfCnt := BitVec.ofNat 32 (min (s.nfCnt.toNat + 1) (2 ^ 32 - 1)) } ∧
    s.flag .addressOutOfRange 1 = { s with
      flags := s.flags ||| 0x002, err := s.err ||| 0x00020000
      aoorCnt := BitVec.ofNat 32 (min (s.aoorCnt.toNat + 1) (2 ^ 32 - 1)) } ∧
    s.flag .capacityExceeded 1 = { s with flags := s.flags ||| 0x004, err := s.err ||| 0x00040000 }) ∧
  ∀ (e : Event) (n : Nat) (s : State), s.flag e 0 = s ∧ s.flag e (n + 1) = (s.flag e n).flag e 1

/-- 60_exceptions.md R286, R281: a command that ends with a fatal error changes ERR, ERRCMD and one FLAGS bit and
nothing else; that ERRCMD is the word `encode i` is log entry 11. NotFound and AddressOutOfRange are no such error.
What `raise` does is spelled for each condition of R281, with its code and its FLAGS bit. -/
def Obligations.FatalErrorChangesOnlyTheReport : Prop :=
  (∀ (i : Instr) (s t : State), exec i s = .next t → t.errCode ≠ 0 →
    ∃ e : Err, e ≠ .notFound ∧ e ≠ .addressOutOfRange ∧ t = { s with
      err := BitVec.ofNat 32 e.code, errCmd := encode i
      flags := s.flags ||| BitVec.twoPow 10 (e.code - 1) } ∧ t = s.raise e (encode i)) ∧
  ∀ (w : Word) (s : State),
    s.raise .notFound w = { s with err := 1, errCmd := w, flags := s.flags ||| 0x001 } ∧
    s.raise .addressOutOfRange w = { s with err := 2, errCmd := w, flags := s.flags ||| 0x002 } ∧
    s.raise .capacityExceeded w = { s with err := 3, errCmd := w, flags := s.flags ||| 0x004 } ∧
    s.raise .sizeMismatch w = { s with err := 4, errCmd := w, flags := s.flags ||| 0x008 } ∧
    s.raise .invalidDimensions w = { s with err := 5, errCmd := w, flags := s.flags ||| 0x010 } ∧
    s.raise .indexOutOfRange w = { s with err := 6, errCmd := w, flags := s.flags ||| 0x020 } ∧
    s.raise .illegalCommand w = { s with err := 7, errCmd := w, flags := s.flags ||| 0x040 } ∧
    s.raise .badConfig w = { s with err := 8, errCmd := w, flags := s.flags ||| 0x080 } ∧
    s.raise .badStream w = { s with err := 9, errCmd := w, flags := s.flags ||| 0x100 } ∧
    s.raise .badState w = { s with err := 10, errCmd := w, flags := s.flags ||| 0x200 }

/-- 60_exceptions.md R289, R25 of 10_state.md: a command that completes leaves ERRCMD (but SRESET), ERR holds
event bits only, each event bit is also in FLAGS, and a counter moves only with its event. -/
def Obligations.CompletionReport : Prop :=
  ∀ (i : Instr) (s t : State), exec i s = .next t → t.errCode = 0 →
    t.err &&& ~~~0x00070000 = 0 ∧
    (i ≠ .sreset → t.errCmd = s.errCmd ∧
      (t.err.getLsbD 16 = false → t.nfCnt = s.nfCnt) ∧
      (t.err.getLsbD 17 = false → t.aoorCnt = s.aoorCnt) ∧
      (t.err.getLsbD 18 = false → t.tovfCnt = s.tovfCnt) ∧
      (t.err.getLsbD 16 = true → t.flags.getLsbD 0 = true) ∧
      (t.err.getLsbD 17 = true → t.flags.getLsbD 1 = true) ∧
      (t.err.getLsbD 18 = true → t.flags.getLsbD 2 = true))

/-- 10_state.md R21, R27 to R36, R41, R42: no command but SRESET clears a bit of FLAGS or writes an operand register,
a configuration register or a selector, and no command writes the build parameter or the host's side. That SRESET is
left out for ARG0 and ARG1 is log entry 15. -/
def Obligations.CommandsKeepConfiguration : Prop :=
  ∀ (i : Instr) (s t : State), exec i s = .next t →
    t.binding = s.binding ∧ t.epoch = s.epoch ∧ t.inReset = s.inReset ∧ t.pending = s.pending ∧
    t.busData = s.busData ∧
    (i ≠ .sreset → s.flags &&& t.flags = s.flags ∧
      t.arg0 = s.arg0 ∧ t.arg1 = s.arg1 ∧ t.mode = s.mode ∧ t.width = s.width ∧ t.height = s.height ∧
      t.colors = s.colors ∧ t.ctrl = s.ctrl ∧ t.lineWidth = s.lineWidth ∧ t.origin = s.origin ∧
      t.placeX = s.placeX ∧ t.placeY = s.placeY ∧ t.tileW = s.tileW ∧ t.tileH = s.tileH ∧
      t.palLen = s.palLen ∧ t.dtSel = s.dtSel ∧ t.dtASel = s.dtASel ∧ t.tbSel = s.tbSel)

/-- 10_state.md R22, R46 to R52; 44_delta_engine.md R210; 45_tile_board.md R251: which commands write a result
register, a memory or a table. -/
def Obligations.EachStoreHasItsWriters : Prop :=
  ∀ (i : Instr) (s t : State), exec i s = .next t →
    t.pal = s.pal ∧
    ((∀ sl, i ≠ .decodeFrame sl) → t.img = s.img) ∧
    ((∀ sl, i ≠ .encodeFrame sl) → t.fb = s.fb ∧ (i ≠ .sreset → t.fbLen = s.fbLen)) ∧
    (i ≠ .marshal → t.out = s.out ∧ (i ≠ .sreset → t.outLen = s.outLen)) ∧
    ((∀ sl, i ≠ .tmap sl) → t.map = s.map ∧ (i ≠ .sreset → t.mapLen = s.mapLen)) ∧
    (i.mnemonic ∉ [.SRESET, .DCLR, .DADD, .DIFF, .DIFFI, .UNMARSHAL] → t.dt = s.dt) ∧
    (i.mnemonic ∉ [.SRESET, .TCLR, .TANALYZE, .TREDUCE, .TSORT] → t.tb = s.tb) ∧
    (i.mnemonic ∉ [.SRESET, .PLOOKUP, .PACK, .UNPACK, .SAFWD, .SAINV, .TLOOKUP] →
      t.res0 = s.res0 ∧ t.res1 = s.res1)

/-! ### Palette index and pixel packer -/

/-- 40_palette_index.md R141: PLOOKUP on every palette length, hit (the lowest position wins) and miss. -/
def Obligations.PlookupFindsLowestPosition : Prop :=
  encode (.plookup .a) = 0x10000000 ∧ encode (.plookup .b) = 0x10000001 ∧
  ∀ (sl : Slot) (s : State),
    (16 < (s.palLen.get sl).toNat →
      exec (.plookup sl) s = .next (s.raise .badConfig (encode (.plookup sl)))) ∧
    ((s.palLen.get sl).toNat ≤ 16 →
      (∀ i < (s.palLen.get sl).toNat, s.palAt sl i = s.arg0 → (∀ j < i, s.palAt sl j ≠ s.arg0) →
        exec (.plookup sl) s = .next { s with err := 0, res0 := BitVec.ofNat 32 i, res1 := 0 }) ∧
      ((∀ i < (s.palLen.get sl).toNat, s.palAt sl i ≠ s.arg0) →
        exec (.plookup sl) s = .next { s with
          err := 0x00010000, flags := s.flags ||| 0x001
          nfCnt := BitVec.ofNat 32 (min (s.nfCnt.toNat + 1) (2 ^ 32 - 1)), res0 := 0, res1 := 1 }))

/-- 10_state.md R28, 00_scope.md R7: which mode each value of MODE selects, and the pixels per byte, bits per index and
largest palette of each mode. 41_pixel_packer.md R151, R152, R153: bit j of pixel k lies at bit BASEPOS(j) - k of the
packed byte; unpacking reads the same bits back, and gives PPB(m) indices within the mode. The positions are the
spec's general knowledge (log entry 8). -/
def Obligations.PackedBitPositions : Prop :=
  (∀ s : State, (s.mode = 0 → s.gmode? = some .m0) ∧ (s.mode = 1 → s.gmode? = some .m1) ∧
    (s.mode = 2 → s.gmode? = some .m2) ∧ (s.mode = 3 → s.gmode? = none)) ∧
  (GMode.ppb .m0 = 2 ∧ GMode.ppb .m1 = 4 ∧ GMode.ppb .m2 = 8) ∧
  (GMode.bpp .m0 = 4 ∧ GMode.bpp .m1 = 2 ∧ GMode.bpp .m2 = 1) ∧
  (GMode.ncol .m0 = 16 ∧ GMode.ncol .m1 = 4 ∧ GMode.ncol .m2 = 2) ∧
  ∀ (m : GMode) (k : Nat), k < m.ppb →
    (∀ (p : List Nat) (j : Nat), j < m.bpp →
      (pack m p).getLsbD ([7, 3, 5, 1].getD j 0 - k) = (p.getD k 0).testBit j) ∧
    ∀ b : Byte, (unpack m b).length = m.ppb ∧ (unpack m b)[k]? = some (unpackAt m b k) ∧
      unpackAt m b k < 2 ^ m.bpp ∧
      ∀ j < m.bpp, (unpackAt m b k).testBit j = b.getLsbD ([7, 3, 5, 1].getD j 0 - k)

/-- 41_pixel_packer.md R154: pack and unpack are inverse to each other, and pack is a bijection from the index
lists within mode bounds to the bytes. R150: the same holds with every bijective table in the place of POS, and the
configured table is one. -/
def Obligations.PackUnpackBijection : Prop :=
  (∀ m : GMode,
    (∀ p : List Nat, p.length = m.ppb → (∀ v ∈ p, v < 2 ^ m.bpp) → unpack m (pack m p) = p) ∧
    (∀ b : Byte, pack m (unpack m b) = b) ∧
    ∀ b : Byte, ∃! p : List Nat, (p.length = m.ppb ∧ ∀ v ∈ p, v < 2 ^ m.bpp) ∧ pack m p = b) ∧
  (∀ (T : PosTable) (m : GMode), T.Bijective →
    (∀ p : List Nat, p.length = m.ppb → (∀ v ∈ p, v < 2 ^ m.bpp) → unpackBy T m (packBy T m p) = p) ∧
    (∀ b : Byte, packBy T m (unpackBy T m b) = b) ∧
    ∀ b : Byte, ∃! p : List Nat, (p.length = m.ppb ∧ ∀ v ∈ p, v < 2 ^ m.bpp) ∧ packBy T m p = b) ∧
  Config.pos.Bijective ∧ pack = packBy Config.pos ∧ unpack = unpackBy Config.pos

/-- 41_pixel_packer.md R155: PACK's prechecks and result. -/
def Obligations.PackPacksArgNibbles : Prop :=
  encode .pack = 0x20000000 ∧
  ∀ s : State, (s.mode = 3 → exec .pack s = .next (s.raise .badConfig (encode .pack))) ∧
    ∀ m, s.gmode? = some m →
      ((∃ k < m.ppb, 2 ^ m.bpp ≤ (s.arg0.toNat >>> (4 * k)) % 16) →
        exec .pack s = .next (s.raise .indexOutOfRange (encode .pack))) ∧
      ((∀ k < m.ppb, (s.arg0.toNat >>> (4 * k)) % 16 < 2 ^ m.bpp) →
        exec .pack s = .next { s with
          err := 0, res1 := 0
          res0 := zext32 (pack m ((List.range m.ppb).map fun k => (s.arg0.toNat >>> (4 * k)) % 16)) })

/-- 41_pixel_packer.md R156: UNPACK's precheck and result; it is total on all 256 bytes. -/
def Obligations.UnpackGivesNibbles : Prop :=
  encode .unpack = 0x21000000 ∧
  ∀ s : State, (s.mode = 3 → exec .unpack s = .next (s.raise .badConfig (encode .unpack))) ∧
    ∀ m, s.gmode? = some m → ∃ r : Word, exec .unpack s = .next { s with err := 0, res0 := r, res1 := 0 } ∧
      ∀ k < 8, (r.toNat >>> (4 * k)) % 16 =
        if k < m.ppb then unpackAt m (s.arg0.extractLsb' 0 8) k else 0

/-! ### Screen addressing -/

/-- 42_screen_addressing.md R171 to R176: when the SA unit can work, how many rows the screen has, which positions
lie inside it, and the offset formula with its bound, for both bindings and one or two banks. The numbers 0x800 and
0x4000 are the spec's general knowledge (log entry 9); that OVERSCAN counts while SPRITE = 1 is log entry 17. -/
def Obligations.ScreenLayout : Prop :=
  ∀ s : State,
    (s.screen.cfgOk = true ↔ 1 ≤ s.lineWidth.toNat ∧
      (s.binding = .literal → 8 * s.lineWidth.toNat ≤ 0x800) ∧
      (s.binding = .interleaved → s.lineWidth.toNat ≤ 0x800)) ∧
    s.screen.rows = (match s.binding with
      | .literal => 8 * (0x4000 / 0x800)
      | .interleaved => 8 * (0x800 / s.lineWidth.toNat)) * (if s.ctrl.getLsbD 1 then 2 else 1) ∧
    ∀ g y, (s.screen.inRange g y = true ↔ g < s.lineWidth.toNat ∧ y < s.screen.rows) ∧
      (s.binding = .literal → s.screen.offset g y =
        y / 64 * 0x4000 + y % 64 / 8 * 0x800 + y % 8 * s.lineWidth.toNat + g) ∧
      (s.binding = .interleaved → s.screen.offset g y =
        y / (8 * (0x800 / s.lineWidth.toNat)) * 0x4000 + y % (8 * (0x800 / s.lineWidth.toNat)) % 8 * 0x800 +
          y % (8 * (0x800 / s.lineWidth.toNat)) / 8 * s.lineWidth.toNat + g) ∧
      (s.screen.cfgOk = true → s.screen.inRange g y = true →
        s.screen.offset g y < 0x4000 * (if s.ctrl.getLsbD 1 then 2 else 1))

/-- 42_screen_addressing.md R183: offset is injective on in-range positions. -/
def Obligations.ScreenOffsetInjective : Prop :=
  ∀ (s : State) (g y g' y' : Nat), s.screen.cfgOk = true → s.screen.inRange g y = true →
    s.screen.inRange g' y' = true → s.screen.offset g y = s.screen.offset g' y' → g = g' ∧ y = y'

/-- 42_screen_addressing.md R182: inverse undoes forward on in-range positions, and forward undoes inverse wherever
it answers ok. -/
def Obligations.ScreenInverse : Prop :=
  ∀ (s : State) (m : GMode), s.screen.cfgOk = true →
    (∀ g y, s.screen.inRange g y = true →
      s.screen.inverse m (s.origin + BitVec.ofNat 16 (s.screen.offset g y)) = ⟨true, g * m.ppb, y⟩) ∧
    ∀ a x y, s.screen.inverse m a = ⟨true, x, y⟩ →
      s.screen.forward m x y = ⟨true, (a - s.origin).toNat, a.toNat⟩

/-- 42_screen_addressing.md R178: SAFWD's prechecks, its in-range result and its out-of-range result. That OVERSCAN
counts while SPRITE = 1 is the model's reading of R178 against 10_state.md R31 (log entry 17). -/
def Obligations.SafwdTranslates : Prop :=
  encode .safwd = 0x30000000 ∧
  ∀ s : State, (s.mode = 3 → exec .safwd s = .next (s.raise .badConfig (encode .safwd))) ∧
    ∀ m, s.gmode? = some m →
      (s.screen.cfgOk = false → exec .safwd s = .next (s.raise .badConfig (encode .safwd))) ∧
      (s.screen.cfgOk = true →
        (s.screen.inRange (s.arg0.toNat / m.ppb) s.arg1.toNat = true → exec .safwd s = .next { s with
          err := 0
          res0 := BitVec.ofNat 32 (s.screen.offset (s.arg0.toNat / m.ppb) s.arg1.toNat)
          res1 := zext32 (s.origin + BitVec.ofNat 16 (s.screen.offset (s.arg0.toNat / m.ppb) s.arg1.toNat)) }) ∧
        (s.screen.inRange (s.arg0.toNat / m.ppb) s.arg1.toNat = false → exec .safwd s = .next { s with
          err := 0x00020000, flags := s.flags ||| 0x002
          aoorCnt := BitVec.ofNat 32 (min (s.aoorCnt.toNat + 1) (2 ^ 32 - 1))
          res0 := 0, res1 := zext32 s.origin }))

/-- 42_screen_addressing.md R179: SAINV's prechecks; it finds the coordinate whose byte lies at the address, and
where there is none reports AddressOutOfRange with (0, 0). That OVERSCAN counts while SPRITE = 1 is log entry 17. -/
def Obligations.SainvFindsTheCoordinate : Prop :=
  encode .sainv = 0x31000000 ∧
  ∀ s : State, (s.mode = 3 → exec .sainv s = .next (s.raise .badConfig (encode .sainv))) ∧
    ∀ m, s.gmode? = some m →
      (s.screen.cfgOk = false → exec .sainv s = .next (s.raise .badConfig (encode .sainv))) ∧
      (s.screen.cfgOk = true →
        (∀ g y, s.screen.inRange g y = true →
          s.arg0.extractLsb' 0 16 = s.origin + BitVec.ofNat 16 (s.screen.offset g y) →
          exec .sainv s = .next { s with
            err := 0, res0 := BitVec.ofNat 32 (g * m.ppb), res1 := BitVec.ofNat 32 y }) ∧
        ((∀ g y, s.screen.inRange g y = true →
            s.arg0.extractLsb' 0 16 ≠ s.origin + BitVec.ofNat 16 (s.screen.offset g y)) →
          exec .sainv s = .next { s with
            err := 0x00020000, flags := s.flags ||| 0x002
            aoorCnt := BitVec.ofNat 32 (min (s.aoorCnt.toNat + 1) (2 ^ 32 - 1))
            res0 := 0, res1 := 0 }))

/-! ### Frame codec -/

/-- 43_frame_codec.md R190, 44_delta_engine.md R221 (a), 60_exceptions.md R288: for each of ENCODE, DECODE, DIFF and
DIFFI the first failing test of its list decides the error; in DIFF SizeMismatch comes before InvalidDimensions. -/
def Obligations.FrameCommandsRejectInOrder : Prop :=
  ∀ s : State,
    let fails (i : Instr) (e : Err) : Prop := exec i s = .next (s.raise e (encode i))
    let saBad : Prop := s.sprite = false ∧ s.screen.cfgOk = false
    (s.mode = 3 → fails .diff .badConfig ∧ fails .diffi .badConfig ∧
      ∀ sl, fails (.encodeFrame sl) .badConfig ∧ fails (.decodeFrame sl) .badConfig) ∧
    ∀ m, s.gmode? = some m →
      (∀ sl, (¬ s.PaletteOk m sl ∨ saBad →
          fails (.encodeFrame sl) .badConfig ∧ fails (.decodeFrame sl) .badConfig) ∧
        (s.PaletteOk m sl → ¬ saBad →
          (¬ s.EncodeAccepts m sl → fails (.encodeFrame sl) .invalidDimensions) ∧
          (¬ s.DecodeAccepts m sl → fails (.decodeFrame sl) .invalidDimensions))) ∧
      (¬ s.PaletteOk m .a ∨ ¬ s.PaletteOk m .b ∨ saBad → fails .diffi .badConfig) ∧
      (s.PaletteOk m .a → s.PaletteOk m .b → ¬ saBad → ¬ s.DiffiAccepts m → fails .diffi .invalidDimensions) ∧
      (saBad → fails .diff .badConfig) ∧
      (¬ saBad → s.fbLen.a ≠ s.fbLen.b → fails .diff .sizeMismatch) ∧
      (¬ saBad → s.fbLen.a = s.fbLen.b → ¬ s.DiffAccepts m → fails .diff .invalidDimensions)

/-- 43_frame_codec.md R194, R198: what ENCODE writes, group bytes, gap bytes and frame length, and that it writes
nothing else; every group byte unpacks to indices below PALLEN_s, hence within COLORS. 20_memory.md R91, R92,
43_frame_codec.md R191: where a group lies in the frame buffer and how long the frame is, for a sprite and for an
addressed buffer, in every state; `ScreenLayout` has the formula of `offset`. The number 0x4000, BANK_SIZE of
00_scope.md R7, is the spec's general knowledge (log entry 9). -/
def Obligations.EncodeWritesTheFrame : Prop :=
  encode (.encodeFrame .a) = 0x40000000 ∧ encode (.encodeFrame .b) = 0x40000001 ∧
  (∀ (s : State) (m : GMode) (g y : Nat),
    (s.ctrl.getLsbD 0 = true → s.loc m g y = y * (s.width.toNat / m.ppb) + g ∧
      s.frameLen m = s.width.toNat / m.ppb * s.height.toNat) ∧
    (s.ctrl.getLsbD 0 = false → s.loc m g y = s.screen.offset g y ∧
      s.frameLen m = 0x4000 * (if s.ctrl.getLsbD 1 then 2 else 1))) ∧
  ∀ (sl : Slot) (s : State) (m : GMode), s.EncodeAccepts m sl →
    ∃ t, exec (.encodeFrame sl) s = .next t ∧
      t = State.flag .notFound (s.imageMisses m sl) { s with
        err := 0, fb := s.fb.set sl (t.fb.get sl), fbLen := s.fbLen.set sl (BitVec.ofNat 16 (s.frameLen m)) } ∧
      (t.fbLen.get sl).toNat = s.frameLen m ∧
      (∀ g y, g < s.width.toNat / m.ppb → y < s.height.toNat →
        t.fbAt sl (s.loc m g y) = s.packGroup m sl g y ∧
        ∀ v ∈ unpack m (t.fbAt sl (s.loc m g y)),
          v < (s.palLen.get sl).toNat ∧ (s.palLen.get sl).toNat ≤ s.colors.toNat) ∧
      (∀ i < s.frameLen m, (∀ g y, g < s.width.toNat / m.ppb → y < s.height.toNat → s.loc m g y ≠ i) →
        t.fbAt sl i = 0) ∧
      ∀ i, s.frameLen m ≤ i → t.fbAt sl i = s.fbAt sl i

/-- 43_frame_codec.md R192, R193, 40_palette_index.md R142: index k of a packed group is the lowest position below
PALLEN that holds the pixel's colour, or 0 where there is none; packing every group of an image raises one NotFound
event for each pixel whose colour is not in the palette. -/
def Obligations.OneMissPerMissingPixel : Prop :=
  (∀ (sl : Slot) (s : State) (m : GMode) (g y : Nat),
    ∃ p : List Nat, s.packGroup m sl g y = pack m p ∧ p.length = m.ppb ∧
      ∀ k < m.ppb, let colour := s.imgAt sl (y * s.width.toNat + g * m.ppb + k)
        (∀ i < (s.palLen.get sl).toNat, s.palAt sl i = colour → (∀ j < i, s.palAt sl j ≠ colour) → p[k]? = some i) ∧
        ((∀ i < (s.palLen.get sl).toNat, s.palAt sl i ≠ colour) → p[k]? = some 0)) ∧
  ∀ (sl : Slot) (s : State) (m : GMode), s.width.toNat % m.ppb = 0 →
    s.imageMisses m sl = (List.range (s.width.toNat * s.height.toNat)).countP fun i =>
      decide (∀ k < (s.palLen.get sl).toNat, s.palAt sl k ≠ s.imgAt sl i)

/-- 43_frame_codec.md R195: what DECODE writes, pixel by pixel, and that it writes nothing else. -/
def Obligations.DecodeWritesTheImage : Prop :=
  encode (.decodeFrame .a) = 0x41000000 ∧ encode (.decodeFrame .b) = 0x41000001 ∧
  ∀ (sl : Slot) (s : State) (m : GMode), s.DecodeAccepts m sl →
    ∃ t, exec (.decodeFrame sl) s = .next t ∧
      t = State.flag .notFound
        ((List.range (s.width.toNat * s.height.toNat)).countP fun i =>
          decide ((s.palLen.get sl).toNat ≤ s.frameIndexAt m sl (i % s.width.toNat) (i / s.width.toNat)))
        { s with err := 0, img := s.img.set sl (t.img.get sl) } ∧
      (∀ x y, x < s.width.toNat → y < s.height.toNat →
        t.imgAt sl (y * s.width.toNat + x) =
          if s.frameIndexAt m sl x y < (s.palLen.get sl).toNat then s.palAt sl (s.frameIndexAt m sl x y)
          else s.palAt sl 0) ∧
      ∀ i, s.width.toNat * s.height.toNat ≤ i → t.imgAt sl i = s.imgAt sl i

/-- 43_frame_codec.md R196: an image whose colours are all in the palette survives ENCODE and DECODE unchanged, and
no NotFound is raised, even when the palette repeats a colour. -/
def Obligations.EncodeThenDecodeRestoresImage : Prop :=
  ∀ (sl : Slot) (s : State) (m : GMode), s.EncodeAccepts m sl →
    (∀ i < s.width.toNat * s.height.toNat, ∃ k < (s.palLen.get sl).toNat, s.palAt sl k = s.imgAt sl i) →
    ∃ t u, exec (.encodeFrame sl) s = .next t ∧ exec (.decodeFrame sl) t = .next u ∧
      (∀ i < s.width.toNat * s.height.toNat, u.imgAt sl i = s.imgAt sl i) ∧
      t.err = 0 ∧ u.err = 0 ∧ u.nfCnt = s.nfCnt ∧ u.flags = s.flags

/-- 43_frame_codec.md R197: a frame whose indices are all palette positions, under a palette of distinct colours,
survives DECODE and ENCODE on its pixel-group bytes; the gap bytes become 0. -/
def Obligations.DecodeThenEncodeRestoresFrame : Prop :=
  ∀ (sl : Slot) (s : State) (m : GMode), s.DecodeAccepts m sl →
    (∀ x y, x < s.width.toNat → y < s.height.toNat → s.frameIndexAt m sl x y < (s.palLen.get sl).toNat) →
    (∀ j < (s.palLen.get sl).toNat, ∀ k < (s.palLen.get sl).toNat, s.palAt sl j = s.palAt sl k → j = k) →
    ∃ t u, exec (.decodeFrame sl) s = .next t ∧ exec (.encodeFrame sl) t = .next u ∧
      (∀ g y, g < s.width.toNat / m.ppb → y < s.height.toNat →
        u.fbAt sl (s.loc m g y) = s.fbAt sl (s.loc m g y)) ∧
      ∀ i < s.frameLen m, (∀ g y, g < s.width.toNat / m.ppb → y < s.height.toNat → s.loc m g y ≠ i) →
        u.fbAt sl i = 0

/-! ### Delta accumulator -/

/-- 44_delta_engine.md R212, R214: a table accumulated from a list of changes has one item per byte value in
first-seen order, each with its addresses in discovery order and their number as its count. -/
def Obligations.DeltaOrderContract : Prop :=
  ∀ cs : List (Byte × Addr16), cs.length < 2 ^ 16 →
    (∀ it ∈ dtAddAll [] cs, it.addrs = (cs.filter fun c => c.1 = it.byte).map Prod.snd ∧ it.addrs ≠ [] ∧
      it.count.toNat = it.addrs.length) ∧
    (∀ b, b ∈ (dtAddAll [] cs).map DtItem.byte ↔ b ∈ cs.map Prod.fst) ∧
    ((dtAddAll [] cs).map DtItem.byte).Pairwise
      (fun b b' => (cs.map Prod.fst).idxOf b < (cs.map Prod.fst).idxOf b')

/-- 44_delta_engine.md R211, R216: the accumulate step, and DADD, which accumulates one change or reports
CapacityExceeded on a full table. -/
def Obligations.DaddAccumulates : Prop :=
  ∀ (b : Byte) (t : Addr16),
    (∀ dt : List DtItem,
      (b ∉ dt.map DtItem.byte → dtAdd b t dt = dt ++ [{ byte := b, count := 1, addrs := [t] }]) ∧
      ∀ pre it post, dt = pre ++ it :: post → it.byte = b → b ∉ pre.map DtItem.byte →
        dtAdd b t dt = pre ++ { it with count := it.count + 1, addrs := it.addrs ++ [t] } :: post) ∧
    encode (.dadd b t) = BitVec.ofNat 32 (0x51000000 + b.toNat * 2 ^ 16 + t.toNat) ∧
    ∀ s : State,
      (dtTotal s.dt = 0x8000 → exec (.dadd b t) s = .next { s with
        err := 3, errCmd := encode (.dadd b t), flags := s.flags ||| 0x004 }) ∧
      (dtTotal s.dt ≠ 0x8000 → exec (.dadd b t) s = .next { s with err := 0, dt := dtAdd b t s.dt })

/-- 44_delta_engine.md R217, R218: DIFF rebuilds DT from the changed positions in raster order, each with its new
byte and target address, and raises AddressOutOfRange once for each one placed outside the screen. -/
def Obligations.DiffRecordsChangedGroups : Prop :=
  encode .diff = 0x52000000 ∧
  ∀ (s : State) (m : GMode), s.DiffAccepts m →
    let changed := (s.rasterGroups m).filter fun p =>
      s.fbAt .a (s.loc m p.1 p.2) != s.fbAt .b (s.loc m p.1 p.2)
    exec .diff s = .next (State.flag .addressOutOfRange (changed.countP (s.placedOutside m)) { s with
      err := 0
      dt := dtAddAll [] (changed.map fun p => (s.fbAt .b (s.loc m p.1 p.2), s.placedAddress m p)) })

/-- 44_delta_engine.md R217, R219: DIFFI does the same on the groups of the two images, each packed with its own
palette, and raises NotFound once for each missing pixel of either image. -/
def Obligations.DiffiRecordsChangedGroups : Prop :=
  encode .diffi = 0x53000000 ∧
  ∀ (s : State) (m : GMode), s.DiffiAccepts m →
    let changed := (s.rasterGroups m).filter fun p => s.packGroup m .a p.1 p.2 != s.packGroup m .b p.1 p.2
    exec .diffi s = .next (State.flag .notFound (s.imageMisses m .a + s.imageMisses m .b)
      (State.flag .addressOutOfRange (changed.countP (s.placedOutside m)) { s with
        err := 0
        dt := dtAddAll [] (changed.map fun p => (s.packGroup m .b p.1 p.2, s.placedAddress m p)) }))

/-- 44_delta_engine.md R220: DIFFI leaves DT, the event counters and FLAGS exactly as ENCODE A; ENCODE B; DIFF
would. -/
def Obligations.DiffiEqualsEncodeEncodeDiff : Prop :=
  ∀ (s : State) (m : GMode), s.DiffiAccepts m →
    ∃ t a b d, exec .diffi s = .next t ∧ exec (.encodeFrame .a) s = .next a ∧
      exec (.encodeFrame .b) a = .next b ∧ exec .diff b = .next d ∧
      t.dt = d.dt ∧ t.flags = d.flags ∧ t.nfCnt = d.nfCnt ∧ t.aoorCnt = d.aoorCnt ∧ t.tovfCnt = d.tovfCnt

/-- 44_delta_engine.md R221 (c): after a DIFF that raised no event, the addresses of DT are the target addresses of
the changed positions, each exactly once, each in the item of its new byte. -/
def Obligations.DeltaCompleteness : Prop :=
  ∀ (s t : State) (m : GMode), s.DiffAccepts m → exec .diff s = .next t → t.err = 0 →
    (t.dt.flatMap DtItem.addrs).Nodup ∧
    (∀ p ∈ s.rasterGroups m, s.fbAt .a (s.loc m p.1 p.2) ≠ s.fbAt .b (s.loc m p.1 p.2) →
      ∃ it ∈ t.dt, it.byte = s.fbAt .b (s.loc m p.1 p.2) ∧ s.placedAddress m p ∈ it.addrs) ∧
    ∀ a ∈ t.dt.flatMap DtItem.addrs, ∃ p ∈ s.rasterGroups m, s.placedAddress m p = a ∧
      s.fbAt .a (s.loc m p.1 p.2) ≠ s.fbAt .b (s.loc m p.1 p.2)

/-- 44_delta_engine.md R222, 20_memory.md R85: the bytes of a stream, the record count low byte first, then for each
record its value, its number of addresses and each address low byte first. 44_delta_engine.md R223: an item's records
carry its addresses in order, 255 in each but the last; MARSHAL writes the stream of DT's records to the start of OUT
and its length to OUTLEN, and changes nothing else; the stream of a table that keeps R51 is at most 66306 bytes
long. -/
def Obligations.MarshalWritesTheStream : Prop :=
  encode .marshal = 0x54000000 ∧
  (∀ recs : List Record, streamBytes recs =
    BitVec.ofNat 8 (recs.length % 256) :: BitVec.ofNat 8 (recs.length / 256) :: recs.flatMap fun r =>
      r.1 :: BitVec.ofNat 8 r.2.length :: r.2.flatMap fun a => [a.extractLsb' 0 8, a.extractLsb' 8 8]) ∧
  (∀ it : DtItem, it.count.toNat = it.addrs.length →
    it.records.flatMap Prod.snd = it.addrs ∧
    (∀ r ∈ it.records, r.1 = it.byte ∧ 1 ≤ r.2.length ∧ r.2.length ≤ 255) ∧
    ∀ r ∈ it.records.dropLast, r.2.length = 255) ∧
  ∀ s : State, let bs := streamBytes (s.dt.flatMap DtItem.records)
    (∃ t, exec .marshal s = .next t ∧
      t = { s with err := 0, out := t.out, outLen := BitVec.ofNat 17 bs.length } ∧
      (∀ i (h : i < bs.length), t.outAt i = bs[i]) ∧ ∀ i, bs.length ≤ i → t.outAt i = s.outAt i) ∧
    (DeltaTableOk s.dt → bs.length ≤ 66306)

/-- 44_delta_engine.md R222, R224: UNMARSHAL replays the records of a well-formed stream in OUT, and reports
BadStream, with DT unchanged, for every other content of OUT[0 .. OUTLEN-1]. -/
def Obligations.UnmarshalReplaysTheStream : Prop :=
  encode .unmarshal = 0x55000000 ∧
  ∀ s : State,
    let isStream (recs : List Record) : Prop :=
      s.outLen.toNat ≤ 0x10400 ∧ (List.range s.outLen.toNat).map s.outAt = streamBytes recs ∧
      recs.length < 2 ^ 16 ∧ (∀ r ∈ recs, r.2.length ≤ 255) ∧ (recs.map fun r => r.2.length).sum ≤ 0x8000
    (∀ recs, isStream recs → exec .unmarshal s = .next { s with
      err := 0, dt := dtAddAll [] (recs.flatMap fun r => r.2.map fun a => (r.1, a)) }) ∧
    ((∀ recs, ¬ isStream recs) → exec .unmarshal s = .next (s.raise .badStream (encode .unmarshal)))

/-- 44_delta_engine.md R225: MARSHAL followed by UNMARSHAL leaves a table that keeps R51 equal to what it was. -/
def Obligations.MarshalThenUnmarshalRestores : Prop :=
  ∀ s : State, DeltaTableOk s.dt →
    ∃ t u, exec .marshal s = .next t ∧ exec .unmarshal t = .next u ∧ u.dt = s.dt ∧ u.err = 0

/-! ### Tile matcher -/

/-- 45_tile_board.md R241, R243, R244: TANALYZE captures the geometry and builds the catalogue of the frame: distinct
contents in first-seen order, each counted, the first 255 kept and every further cell dropped and counted. `tileEpoch` is the model's (log entry 6). -/
def Obligations.TanalyzeBuildsTheCatalogue : Prop :=
  encode (.tanalyze .a) = 0x61000000 ∧ encode (.tanalyze .b) = 0x61000001 ∧
  ∀ (sl : Slot) (s : State) (m : GMode), s.AnalyzeAccepts m sl →
    ∃ t d, exec (.tanalyze sl) s = .next t ∧
      t = State.flag .capacityExceeded d { s with
        err := 0, tb := t.tb, tileEpoch := s.tileEpoch + 1, tovfCnt := satAdd s.tovfCnt d } ∧
      t.tb.mode = m ∧ t.tb.tw = s.tileW ∧ t.tb.th = s.tileH ∧
      t.tb.cols.toNat = s.width.toNat / s.tileW.toNat ∧ t.tb.rows.toNat = s.height.toNat / s.tileH.toNat ∧
      t.tb.tbytes.toNat = s.tileW.toNat / m.ppb * s.tileH.toNat ∧
      t.tb.valid = true ∧ t.tb.sorted = false ∧ t.tb.ovf = decide (0 < d) ∧
      (∀ n r c, r < s.tileH.toNat → c < s.tileW.toNat / m.ppb →
        (s.cellContent t.tb sl n)[r * (s.tileW.toNat / m.ppb) + c]? = some (s.fbAt sl
          ((n / (s.width.toNat / s.tileW.toNat) * s.tileH.toNat + r) * (s.width.toNat / m.ppb) +
            n % (s.width.toNat / s.tileW.toNat) * (s.tileW.toNat / m.ppb) + c))) ∧
      (let cells := (List.range t.tb.cells).map (s.cellContent t.tb sl)
       let kept := t.tb.entries.map TileEntry.content
       kept.Nodup ∧ kept.length ≤ 255 ∧
       (∀ e ∈ t.tb.entries, e.content ∈ cells ∧ e.count.toNat = cells.count e.content) ∧
       kept.Pairwise (fun a b => cells.idxOf a < cells.idxOf b) ∧
       (∀ c ∈ cells, c ∉ kept → kept.length = 255 ∧ ∀ a ∈ kept, cells.idxOf a < cells.idxOf c) ∧
       d = cells.countP fun c => decide (c ∉ kept))

/-- 45_tile_board.md R243, 60_exceptions.md R288: TANALYZE's rejections. -/
def Obligations.TanalyzeRejects : Prop :=
  ∀ (sl : Slot) (s : State),
    (s.mode = 3 → exec (.tanalyze sl) s = .next (s.raise .badConfig (encode (.tanalyze sl)))) ∧
    ∀ m, s.gmode? = some m → ¬ s.AnalyzeAccepts m sl →
      exec (.tanalyze sl) s = .next (s.raise .invalidDimensions (encode (.tanalyze sl)))

/-- 45_tile_board.md R245: the difference metric counts the differing pixels, is symmetric, is 0 exactly for equal
contents, and is at most the number of pixels of the tile. -/
def Obligations.DifferenceMetric : Prop :=
  ∀ (m : GMode) (a b : List Byte), a.length = b.length →
    tileDist m a b = ((List.range a.length).map fun j =>
      (List.range m.ppb).countP fun k => unpackAt m (a.getD j 0) k != unpackAt m (b.getD j 0) k).sum ∧
    tileDist m a b = tileDist m b a ∧ (tileDist m a b = 0 ↔ a = b) ∧ tileDist m a b ≤ a.length * m.ppb

/-- 45_tile_board.md R246: TREDUCE in each condition of the table. `tileEpoch` is the model's (log entry 6). -/
def Obligations.TreduceMergesEntries : Prop :=
  ∀ (imm : BitVec 16) (s : State),
    encode (.treduce imm) = BitVec.ofNat 32 (0x62000000 + imm.toNat) ∧
    ((s.tb.valid = false ∨ s.tb.sorted = true) →
      exec (.treduce imm) s = .next (s.raise .badState (encode (.treduce imm)))) ∧
    (s.tb.valid = true → s.tb.sorted = false → exec (.treduce imm) s = .next { s with
      err := 0, tileEpoch := s.tileEpoch + 1
      tb := { s.tb with
        entries := reduceTiles s.tb.mode imm.toNat s.tb.entries.length s.tb.entries } })

/-- 45_tile_board.md R246: what the merge leaves: survivors in their old order with their own contents, no two of
them nearer than the threshold, each with the counts of the entries whose first near survivor it is. -/
def Obligations.ReducedCatalogue : Prop :=
  ∀ (m : GMode) (thr : Nat) (es : List TileEntry), (es.map TileEntry.content).Nodup →
    (es.map fun e => e.count.toNat).sum < 2 ^ 16 →
    let r := reduceTiles m thr es.length es
    let owner (e : TileEntry) := r.find? fun f => f.content == e.content || tileDist m f.content e.content < thr
    (r.map TileEntry.content).Sublist (es.map TileEntry.content) ∧
    r.Pairwise (fun e f => thr ≤ tileDist m e.content f.content) ∧
    (∀ e ∈ es, (owner e).isSome = true) ∧
    (∀ f ∈ r, f.count.toNat = ((es.filter fun e => owner e == some f).map fun e => e.count.toNat).sum) ∧
    (r.map fun e => e.count.toNat).sum = (es.map fun e => e.count.toNat).sum

/-- 45_tile_board.md R247: TSORT on an invalid table reports BadState; on a valid one it reorders the entries by
non-increasing count, ties in their old order, and repeats CapacityExceeded when OVF is set. `tileEpoch` is the
model's (log entry 6). -/
def Obligations.TsortIsStable : Prop :=
  encode .tsort = 0x63000000 ∧
  ∀ s : State, (s.tb.valid = false → exec .tsort s = .next (s.raise .badState (encode .tsort))) ∧
    (s.tb.valid = true → ∃ es,
      exec .tsort s = .next (State.flag .capacityExceeded (if s.tb.ovf then 1 else 0) { s with
        err := 0, tileEpoch := s.tileEpoch + 1, tb := { s.tb with entries := es, sorted := true } }) ∧
      es.Perm s.tb.entries ∧ es.Pairwise (fun e f => f.count.toNat ≤ e.count.toNat) ∧
      ∀ c : BitVec 16, (es.filter fun e => e.count == c) = s.tb.entries.filter fun e => e.count == c)

/-- 45_tile_board.md R248: TLOOKUP's prechecks in order, its hit and its miss. -/
def Obligations.TlookupFindsTheTile : Prop :=
  encode (.tlookup .a) = 0x64000000 ∧ encode (.tlookup .b) = 0x64000001 ∧
  ∀ (sl : Slot) (s : State),
    let w := encode (.tlookup sl)
    let n := s.arg0.toNat
    (s.tb.valid = false → exec (.tlookup sl) s = .next (s.raise .badState w)) ∧
    (s.tb.valid = true → ¬ s.CatalogueAccepts sl → exec (.tlookup sl) s = .next (s.raise .invalidDimensions w)) ∧
    (s.CatalogueAccepts sl → s.tb.cols.toNat * s.tb.rows.toNat ≤ n →
      exec (.tlookup sl) s = .next (s.raise .invalidDimensions w)) ∧
    (s.CatalogueAccepts sl → n < s.tb.cols.toNat * s.tb.rows.toNat →
      (∀ (k : Nat) (e : TileEntry), s.tb.entries[k]? = some e → e.content = s.cellContent s.tb sl n →
        (∀ j < k, ∀ f, s.tb.entries[j]? = some f → f.content ≠ s.cellContent s.tb sl n) →
        exec (.tlookup sl) s = .next { s with err := 0, res0 := BitVec.ofNat 32 k, res1 := 0 }) ∧
      ((∀ e ∈ s.tb.entries, e.content ≠ s.cellContent s.tb sl n) →
        exec (.tlookup sl) s = .next { s with
          err := 0x00010000, flags := s.flags ||| 0x001
          nfCnt := BitVec.ofNat 32 (min (s.nfCnt.toNat + 1) (2 ^ 32 - 1)), res0 := 0, res1 := 1 }))

/-- 45_tile_board.md R249: TMAP's prechecks in order; for every cell of the grid it writes the position of the entry
with that content, or 0 and one NotFound event, and it changes nothing else. -/
def Obligations.TmapWritesEveryCell : Prop :=
  encode (.tmap .a) = 0x65000000 ∧ encode (.tmap .b) = 0x65000001 ∧
  ∀ (sl : Slot) (s : State),
    let cells := s.tb.cols.toNat * s.tb.rows.toNat
    let content := s.cellContent s.tb sl
    (s.tb.valid = false → exec (.tmap sl) s = .next (s.raise .badState (encode (.tmap sl)))) ∧
    (s.tb.valid = true → ¬ s.CatalogueAccepts sl →
      exec (.tmap sl) s = .next (s.raise .invalidDimensions (encode (.tmap sl)))) ∧
    (s.CatalogueAccepts sl → ∃ t, exec (.tmap sl) s = .next t ∧
      t = State.flag .notFound
        ((List.range cells).countP fun n => decide (∀ e ∈ s.tb.entries, e.content ≠ content n))
        { s with err := 0, map := t.map, mapLen := BitVec.ofNat 16 cells } ∧
      (∀ n < cells,
        (∀ (k : Nat) (e : TileEntry), s.tb.entries[k]? = some e → e.content = content n →
          (∀ j < k, ∀ f, s.tb.entries[j]? = some f → f.content ≠ content n) → t.mapAt n = BitVec.ofNat 8 k) ∧
        ((∀ e ∈ s.tb.entries, e.content ≠ content n) → t.mapAt n = 0)) ∧
      ∀ n, cells ≤ n → t.mapAt n = s.mapAt n)

/-- 45_tile_board.md R250 (b): after a completed TANALYZE with OVF = 0, sorted or not, every cell of the frame is
found and TMAP raises no NotFound. -/
def Obligations.CatalogueIsExhaustive : Prop :=
  ∀ (sl : Slot) (s t : State), exec (.tanalyze sl) s = .next t → t.errCode = 0 → t.tb.ovf = false →
    ∃ u, exec .tsort t = .next u ∧
      ∀ x ∈ [t, u],
        (∃ v, exec (.tmap sl) x = .next v ∧ v.err = 0 ∧ v.nfCnt = s.nfCnt) ∧
        ∀ n : Word, n.toNat < t.tb.cells →
          ∃ y, exec (.tlookup sl) { x with arg0 := n } = .next y ∧ y.res1 = 0 ∧
            (x.tb.entries[y.res0.toNat]?).map TileEntry.content = some (s.cellContent t.tb sl n.toNat)

/-- 45_tile_board.md R251: the life cycle of TB. -/
def Obligations.TileTableLifeCycle : Prop :=
  ∀ (i : Instr) (s t : State), exec i s = .next t →
    (i = .tclr ∨ i = .sreset → t.tb.valid = false ∧ t.tb.sorted = false) ∧
    (∀ sl, i = .tanalyze sl → (t.errCode = 0 → t.tb.valid = true ∧ t.tb.sorted = false) ∧
      (t.errCode ≠ 0 → t.tb = s.tb)) ∧
    (∀ imm, i = .treduce imm → (t.errCode = 0 ↔ s.tb.valid = true ∧ s.tb.sorted = false) ∧
      t.tb.valid = s.tb.valid ∧ t.tb.sorted = s.tb.sorted) ∧
    (i = .tsort → (t.errCode = 0 ↔ s.tb.valid = true) ∧ t.tb.valid = s.tb.valid ∧
      (s.tb.valid = true → t.tb.sorted = true)) ∧
    (∀ sl, i = .tlookup sl ∨ i = .tmap sl → s.tb.valid = false → t.err = 0x0000000A) ∧
    (i.mnemonic ∉ [.TCLR, .SRESET, .TANALYZE, .TREDUCE, .TSORT] → t.tb = s.tb)

/-! ### Invariants -/

/-- The canonical form of the memories, the tables and ERR hold of the reset state. -/
def Obligations.ResetKeepsTheRules : Prop := State.reset.Inv

/-- 10_state.md R51 (a), (b), (c): the rules of the delta table are kept by every step. -/
def Obligations.StepKeepsDeltaTable : Prop :=
  ∀ s t : State, DeltaTableOk s.dt → step s = .next t → DeltaTableOk t.dt

/-- 10_state.md R56, R57 (a), (b), (d): the rules of the tile table are kept by every step. -/
def Obligations.StepKeepsTileTable : Prop :=
  ∀ s t : State, TileTableOk s.tb → step s = .next t → TileTableOk t.tb

/-- The canonical form of the memories (the model's, log entry 4) is kept by every step on its own; together with
the rules above and 20_memory.md R93, no step puts an element outside a memory's capacity, and every step keeps
them all; the build parameter never changes (log entry 7). -/
def Obligations.StepKeepsEveryRule : Prop :=
  (∀ s t : State, s.MemoriesCanonical → step s = .next t → t.MemoriesCanonical) ∧
  ∀ s t : State, s.Inv → step s = .next t → t.Inv ∧ t.binding = s.binding
end

