-- ==== Sys2Proof/Laws/Config.lean ====
section
/-! SUPPORT. The build parameters of 00_scope.md R7: the types have the widths it names, its constraints between
parameters hold, and whole-word equality of colours is equality in every channel. -/

namespace Sys2Proof

/-! ### The types have the named widths -/

theorem word_width : Word = BitVec Config.wordBits := rfl
theorem busAddr_width : BusAddr = BitVec Config.busAddrBits := rfl
theorem addr16_width : Addr16 = BitVec Config.addrBits := rfl
theorem colour_width : 4 * Config.chanBits = Config.wordBits := rfl

/-! ### Derived parameters -/

theorem GMode.ppb_pos (m : GMode) : 0 < m.ppb := by cases m <;> decide
theorem GMode.ppb_mul_bpp (m : GMode) : m.ppb * m.bpp = 8 := by cases m <;> rfl
theorem GMode.ncol_eq (m : GMode) : m.ncol = 2 ^ m.bpp := by cases m <;> rfl
theorem palEntries_eq : Config.palEntries = GMode.m0.ncol := rfl

/-! ### The constraints that the rules rely on -/

theorem pos_bijective : Config.pos.Bijective := fun m => by cases m <;> decide
theorem bankStride_dvd_bankSize : Config.bankStride ∣ Config.bankSize := by decide
theorem bandLines_mul_bankStride_le : Config.bandLines * Config.bankStride ≤ Config.bankSize := by decide
theorem fbCap_eq : Config.fbCap = 2 * Config.bankSize := rfl
theorem banks_le_address_space : 2 * Config.bankSize ≤ 2 ^ Config.addrBits := by decide
theorem fbCap_le_mapCap : Config.fbCap ≤ Config.mapCap := by decide
theorem fbCap_le_dtAddrCap : Config.fbCap ≤ Config.dtAddrCap := by decide

namespace Machine

/-! ### Colours -/

/-- Two colours are equal exactly when their four channels are (10_state.md R46, 40_palette_index.md R140). -/
theorem colour_eq_iff (c d : Word) : c = d ↔ ∀ ch, channel ch c = channel ch d := by
  refine ⟨fun h ch => h ▸ rfl, fun h => BitVec.eq_of_getLsbD_eq fun k hk => ?_⟩
  have bit (ch : Channel) (j : Nat) (hj : j < 8) : c.getLsbD (ch.place * 8 + j) = d.getLsbD (ch.place * 8 + j) := by
    have := congrArg (fun v => BitVec.getLsbD v j) (h ch)
    simpa [channel, Config.chanBits, hj] using this
  have h1 := bit .red (k % 8) (by omega)
  have h2 := bit .green (k % 8) (by omega)
  have h3 := bit .blue (k % 8) (by omega)
  have h4 := bit .alpha (k % 8) (by omega)
  simp only [Channel.place] at h1 h2 h3 h4
  have : k = 0 * 8 + k % 8 ∨ k = 1 * 8 + k % 8 ∨ k = 2 * 8 + k % 8 ∨ k = 3 * 8 + k % 8 := by omega
  rcases this with e | e | e | e <;> rw [e] <;> assumption

end Machine

end Sys2Proof
end

