-- ==== Sys2Proof/Laws/Memory.lean ====
section
/-! SUPPORT. The laws of the local memories: what a read gives after a write or a fill, and that every memory
operation keeps the canonical form and the capacity. -/

namespace Sys2Proof.Machine

variable {w : Nat}

/-! ### Reading -/

@[simp] theorem Memory.get?_nil (i : Nat) : Memory.get? ([] : Memory w) i = none := rfl

theorem Memory.get?_cons (k : Nat) (v : BitVec w) (t : Memory w) (i : Nat) :
    Memory.get? ((k, v) :: t) i = if k = i then some v else Memory.get? t i := rfl

@[simp] theorem Memory.get?_set_self (m : Memory w) (i : Nat) (v : BitVec w) :
    (Memory.set m i v).get? i = some v := by
  induction m with
  | nil => simp [Memory.set, Memory.get?]
  | cons c t ih =>
    obtain ⟨k, x⟩ := c
    simp only [Memory.set]
    split
    · simp [Memory.get?]
    · split
      · simp [Memory.get?]
      · rename_i h
        simpa [Memory.get?, Ne.symm h] using ih

theorem Memory.get?_set_ne (m : Memory w) {i j : Nat} (h : i ≠ j) (v : BitVec w) :
    (Memory.set m i v).get? j = m.get? j := by
  induction m with
  | nil => simp [Memory.set, Memory.get?, h]
  | cons c t ih =>
    obtain ⟨k, x⟩ := c
    simp only [Memory.set]
    split
    · simp [Memory.get?, h]
    · split
      · rename_i hk
        subst hk
        simp [Memory.get?, h]
      · by_cases hk : k = j <;> simp [Memory.get?, hk, ih]

theorem Memory.get?_append (m n : Memory w) (i : Nat) :
    Memory.get? (m ++ n) i = (m.get? i).or (n.get? i) := by
  induction m with
  | nil => simp
  | cons c t ih =>
    obtain ⟨k, x⟩ := c
    by_cases h : k = i <;> simp [Memory.get?, h, ih]

theorem Memory.get?_run (vs : List (BitVec w)) (b i : Nat) :
    (Memory.run b vs).get? i = if b ≤ i then vs[i - b]? else none := by
  induction vs generalizing b with
  | nil => simp [Memory.run]
  | cons v vs ih =>
    by_cases h : b = i
    · subst h; simp [Memory.run, Memory.get?]
    · simp only [Memory.run, Memory.get?, h, if_false, ih]
      by_cases hb : b ≤ i
      · have hb' : b + 1 ≤ i := by omega
        obtain ⟨d, hd⟩ : ∃ d, i - b = d + 1 := ⟨i - b - 1, by omega⟩
        have hd' : i - (b + 1) = d := by omega
        simp [hb, hb', hd, hd']
      · have hb' : ¬ b + 1 ≤ i := by omega
        simp [hb, hb']

theorem Memory.get?_filter_ge (m : Memory w) (n i : Nat) (h : n ≤ i) :
    Memory.get? (m.filter fun c => n ≤ c.1) i = m.get? i := by
  induction m with
  | nil => rfl
  | cons c t ih =>
    obtain ⟨k, x⟩ := c
    by_cases hk : n ≤ k
    · simp [hk, Memory.get?, ih]
    · have hne : k ≠ i := by omega
      simp [hk, Memory.get?, ih, hne]

/-- A filled element reads as its value. -/
theorem Memory.get?_fill_lt (m : Memory w) (vs : List (BitVec w)) {i : Nat} (h : i < vs.length) :
    (m.fill vs).get? i = some vs[i] := by
  simp [Memory.fill, Memory.get?_append, Memory.get?_run, h]

/-- An element beyond the filled ones reads as before. -/
theorem Memory.get?_fill_ge (m : Memory w) (vs : List (BitVec w)) {i : Nat} (h : vs.length ≤ i) :
    (m.fill vs).get? i = m.get? i := by
  rw [Memory.fill, Memory.get?_append, Memory.get?_run, Memory.get?_filter_ge m _ _ h]
  simp [h]

@[simp] theorem Memory.read_set_self (m : Memory w) (e : Nat) (win : Window) (i : Nat) (v : BitVec w) :
    (Memory.set m i v).read e win i = v := by simp [Memory.read]

theorem Memory.read_set_ne (m : Memory w) (e : Nat) (win : Window) {i j : Nat} (h : i ≠ j) (v : BitVec w) :
    (Memory.set m i v).read e win j = m.read e win j := by simp [Memory.read, Memory.get?_set_ne m h]

theorem Memory.read_fill_lt (m : Memory w) (e : Nat) (win : Window) (vs : List (BitVec w)) {i : Nat}
    (h : i < vs.length) : (m.fill vs).read e win i = vs[i] := by
  simp [Memory.read, Memory.get?_fill_lt m vs h]

theorem Memory.read_fill_ge (m : Memory w) (e : Nat) (win : Window) (vs : List (BitVec w)) {i : Nat}
    (h : vs.length ≤ i) : (m.fill vs).read e win i = m.read e win i := by
  simp [Memory.read, Memory.get?_fill_ge m vs h]

/-! ### The canonical form -/

theorem Memory.wf_iff (m : Memory w) : m.wf = true ↔ m.Pairwise (fun a b => a.1 < b.1) := by
  simp [Memory.wf, List.pairwise_map]

theorem Memory.mem_set {m : Memory w} {i : Nat} {v : BitVec w} {c : Nat × BitVec w}
    (h : c ∈ Memory.set m i v) : c = (i, v) ∨ c ∈ m := by
  induction m with
  | nil => simpa [Memory.set] using h
  | cons d t ih =>
    obtain ⟨k, x⟩ := d
    simp only [Memory.set] at h
    split at h
    · simpa using h
    · split at h
      · rcases List.mem_cons.1 h with h | h
        · exact .inl h
        · exact .inr (List.mem_cons_of_mem _ h)
      · rcases List.mem_cons.1 h with h | h
        · exact .inr (h ▸ List.mem_cons_self)
        · exact (ih h).imp id (List.mem_cons_of_mem _)

/-- A write keeps the canonical form. -/
theorem Memory.wf_set {m : Memory w} (h : m.wf = true) (i : Nat) (v : BitVec w) :
    Memory.wf (Memory.set m i v) = true := by
  rw [Memory.wf_iff] at h ⊢
  induction m with
  | nil => simp [Memory.set]
  | cons d t ih =>
    obtain ⟨k, x⟩ := d
    have hd := List.pairwise_cons.1 h
    simp only [Memory.set]
    split
    · rename_i hik
      refine List.pairwise_cons.2 ⟨fun c hc => ?_, h⟩
      rcases List.mem_cons.1 hc with rfl | hc
      · exact hik
      · exact lt_trans hik (hd.1 c hc)
    · split
      · rename_i hik
        subst hik
        exact List.pairwise_cons.2 hd
      · rename_i h1 h2
        refine List.pairwise_cons.2 ⟨fun c hc => ?_, ih hd.2⟩
        rcases Memory.mem_set hc with rfl | hc
        · change k < i
          omega
        · exact hd.1 c hc

theorem Memory.mem_run {vs : List (BitVec w)} {b : Nat} {c : Nat × BitVec w} (h : c ∈ Memory.run b vs) :
    b ≤ c.1 ∧ c.1 < b + vs.length := by
  induction vs generalizing b with
  | nil => simp [Memory.run] at h
  | cons v vs ih =>
    rcases List.mem_cons.1 h with rfl | h
    · simp
    · have := ih h
      simp only [List.length_cons]
      omega

theorem Memory.pairwise_run (vs : List (BitVec w)) (b : Nat) :
    (Memory.run b vs).Pairwise (fun a b => a.1 < b.1) := by
  induction vs generalizing b with
  | nil => simp [Memory.run]
  | cons v vs ih =>
    refine List.pairwise_cons.2 ⟨fun c hc => ?_, ih (b + 1)⟩
    have := Memory.mem_run hc
    change b < c.1
    omega

/-- A fill keeps the canonical form. -/
theorem Memory.wf_fill {m : Memory w} (h : m.wf = true) (vs : List (BitVec w)) :
    Memory.wf (m.fill vs) = true := by
  rw [Memory.wf_iff] at h ⊢
  refine List.pairwise_append.2 ⟨Memory.pairwise_run vs 0, h.filter _, fun a ha b hb => ?_⟩
  have h1 := Memory.mem_run ha
  have h2 := (List.mem_filter.1 hb).2
  simp only [decide_eq_true_eq] at h2
  omega

@[simp] theorem Memory.wf_nil : Memory.wf ([] : Memory w) = true := rfl

/-! ### The capacity -/

theorem Memory.below_set {m : Memory w} {cap i : Nat} (h : m.Below cap) (hi : i < cap) (v : BitVec w) :
    Memory.Below cap (Memory.set m i v) := by
  intro c hc
  rcases Memory.mem_set hc with rfl | hc
  · exact hi
  · exact h c hc

theorem Memory.below_fill {m : Memory w} {cap : Nat} (h : m.Below cap) {vs : List (BitVec w)}
    (hv : vs.length ≤ cap) : Memory.Below cap (m.fill vs) := by
  intro c hc
  rcases List.mem_append.1 hc with hc | hc
  · have := Memory.mem_run hc
    omega
  · exact h c (List.mem_of_mem_filter hc)

end Sys2Proof.Machine
end

