-- ==== Sys2Proof/Laws/State.lean ====
section
/-! SUPPORT. One lemma per field per named update of the state, true by rfl, so that no later proof unfolds an
update; the same for what commands read of a state whose report was cleared; and the laws of `PerSlot`. -/

namespace Sys2Proof.Machine

/-! ### Pairs by slot -/

@[simp] theorem PerSlot.get_set_self {α : Type} (p : PerSlot α) (sl : Slot) (x : α) :
    (p.set sl x).get sl = x := by cases sl <;> rfl

theorem PerSlot.get_set_ne {α : Type} (p : PerSlot α) {sl sl' : Slot} (h : sl ≠ sl') (x : α) :
    (p.set sl x).get sl' = p.get sl' := by cases sl <;> cases sl' <;> simp_all [PerSlot.set, PerSlot.get]

@[simp] theorem PerSlot.set_get {α : Type} (p : PerSlot α) (sl : Slot) : p.set sl (p.get sl) = p := by
  cases sl <;> rfl

@[simp] theorem PerSlot.get_a {α : Type} (p : PerSlot α) : p.get .a = p.a := rfl
@[simp] theorem PerSlot.get_b {α : Type} (p : PerSlot α) : p.get .b = p.b := rfl

/-! ### clearReport -/

section
variable (s : State)

@[simp] theorem State.clearReport_err : (s.clearReport).err = 0 := rfl
@[simp] theorem State.clearReport_errCmd : (s.clearReport).errCmd = s.errCmd := rfl
@[simp] theorem State.clearReport_flags : (s.clearReport).flags = s.flags := rfl
@[simp] theorem State.clearReport_arg0 : (s.clearReport).arg0 = s.arg0 := rfl
@[simp] theorem State.clearReport_arg1 : (s.clearReport).arg1 = s.arg1 := rfl
@[simp] theorem State.clearReport_res0 : (s.clearReport).res0 = s.res0 := rfl
@[simp] theorem State.clearReport_res1 : (s.clearReport).res1 = s.res1 := rfl
@[simp] theorem State.clearReport_mode : (s.clearReport).mode = s.mode := rfl
@[simp] theorem State.clearReport_width : (s.clearReport).width = s.width := rfl
@[simp] theorem State.clearReport_height : (s.clearReport).height = s.height := rfl
@[simp] theorem State.clearReport_colors : (s.clearReport).colors = s.colors := rfl
@[simp] theorem State.clearReport_ctrl : (s.clearReport).ctrl = s.ctrl := rfl
@[simp] theorem State.clearReport_lineWidth : (s.clearReport).lineWidth = s.lineWidth := rfl
@[simp] theorem State.clearReport_origin : (s.clearReport).origin = s.origin := rfl
@[simp] theorem State.clearReport_placeX : (s.clearReport).placeX = s.placeX := rfl
@[simp] theorem State.clearReport_placeY : (s.clearReport).placeY = s.placeY := rfl
@[simp] theorem State.clearReport_tileW : (s.clearReport).tileW = s.tileW := rfl
@[simp] theorem State.clearReport_tileH : (s.clearReport).tileH = s.tileH := rfl
@[simp] theorem State.clearReport_palLen : (s.clearReport).palLen = s.palLen := rfl
@[simp] theorem State.clearReport_fbLen : (s.clearReport).fbLen = s.fbLen := rfl
@[simp] theorem State.clearReport_outLen : (s.clearReport).outLen = s.outLen := rfl
@[simp] theorem State.clearReport_mapLen : (s.clearReport).mapLen = s.mapLen := rfl
@[simp] theorem State.clearReport_nfCnt : (s.clearReport).nfCnt = s.nfCnt := rfl
@[simp] theorem State.clearReport_aoorCnt : (s.clearReport).aoorCnt = s.aoorCnt := rfl
@[simp] theorem State.clearReport_tovfCnt : (s.clearReport).tovfCnt = s.tovfCnt := rfl
@[simp] theorem State.clearReport_dtSel : (s.clearReport).dtSel = s.dtSel := rfl
@[simp] theorem State.clearReport_dtASel : (s.clearReport).dtASel = s.dtASel := rfl
@[simp] theorem State.clearReport_tbSel : (s.clearReport).tbSel = s.tbSel := rfl
@[simp] theorem State.clearReport_pal : (s.clearReport).pal = s.pal := rfl
@[simp] theorem State.clearReport_img : (s.clearReport).img = s.img := rfl
@[simp] theorem State.clearReport_fb : (s.clearReport).fb = s.fb := rfl
@[simp] theorem State.clearReport_out : (s.clearReport).out = s.out := rfl
@[simp] theorem State.clearReport_map : (s.clearReport).map = s.map := rfl
@[simp] theorem State.clearReport_dt : (s.clearReport).dt = s.dt := rfl
@[simp] theorem State.clearReport_tb : (s.clearReport).tb = s.tb := rfl
@[simp] theorem State.clearReport_binding : (s.clearReport).binding = s.binding := rfl
@[simp] theorem State.clearReport_epoch : (s.clearReport).epoch = s.epoch := rfl
@[simp] theorem State.clearReport_tileEpoch : (s.clearReport).tileEpoch = s.tileEpoch := rfl
@[simp] theorem State.clearReport_inReset : (s.clearReport).inReset = s.inReset := rfl
@[simp] theorem State.clearReport_pending : (s.clearReport).pending = s.pending := rfl
@[simp] theorem State.clearReport_busData : (s.clearReport).busData = s.busData := rfl

end

/-! ### setRes -/

section
variable (s : State) (r0 r1 : Word)

@[simp] theorem State.setRes_err : (s.setRes r0 r1).err = s.err := rfl
@[simp] theorem State.setRes_errCmd : (s.setRes r0 r1).errCmd = s.errCmd := rfl
@[simp] theorem State.setRes_flags : (s.setRes r0 r1).flags = s.flags := rfl
@[simp] theorem State.setRes_arg0 : (s.setRes r0 r1).arg0 = s.arg0 := rfl
@[simp] theorem State.setRes_arg1 : (s.setRes r0 r1).arg1 = s.arg1 := rfl
@[simp] theorem State.setRes_res0 : (s.setRes r0 r1).res0 = r0 := rfl
@[simp] theorem State.setRes_res1 : (s.setRes r0 r1).res1 = r1 := rfl
@[simp] theorem State.setRes_mode : (s.setRes r0 r1).mode = s.mode := rfl
@[simp] theorem State.setRes_width : (s.setRes r0 r1).width = s.width := rfl
@[simp] theorem State.setRes_height : (s.setRes r0 r1).height = s.height := rfl
@[simp] theorem State.setRes_colors : (s.setRes r0 r1).colors = s.colors := rfl
@[simp] theorem State.setRes_ctrl : (s.setRes r0 r1).ctrl = s.ctrl := rfl
@[simp] theorem State.setRes_lineWidth : (s.setRes r0 r1).lineWidth = s.lineWidth := rfl
@[simp] theorem State.setRes_origin : (s.setRes r0 r1).origin = s.origin := rfl
@[simp] theorem State.setRes_placeX : (s.setRes r0 r1).placeX = s.placeX := rfl
@[simp] theorem State.setRes_placeY : (s.setRes r0 r1).placeY = s.placeY := rfl
@[simp] theorem State.setRes_tileW : (s.setRes r0 r1).tileW = s.tileW := rfl
@[simp] theorem State.setRes_tileH : (s.setRes r0 r1).tileH = s.tileH := rfl
@[simp] theorem State.setRes_palLen : (s.setRes r0 r1).palLen = s.palLen := rfl
@[simp] theorem State.setRes_fbLen : (s.setRes r0 r1).fbLen = s.fbLen := rfl
@[simp] theorem State.setRes_outLen : (s.setRes r0 r1).outLen = s.outLen := rfl
@[simp] theorem State.setRes_mapLen : (s.setRes r0 r1).mapLen = s.mapLen := rfl
@[simp] theorem State.setRes_nfCnt : (s.setRes r0 r1).nfCnt = s.nfCnt := rfl
@[simp] theorem State.setRes_aoorCnt : (s.setRes r0 r1).aoorCnt = s.aoorCnt := rfl
@[simp] theorem State.setRes_tovfCnt : (s.setRes r0 r1).tovfCnt = s.tovfCnt := rfl
@[simp] theorem State.setRes_dtSel : (s.setRes r0 r1).dtSel = s.dtSel := rfl
@[simp] theorem State.setRes_dtASel : (s.setRes r0 r1).dtASel = s.dtASel := rfl
@[simp] theorem State.setRes_tbSel : (s.setRes r0 r1).tbSel = s.tbSel := rfl
@[simp] theorem State.setRes_pal : (s.setRes r0 r1).pal = s.pal := rfl
@[simp] theorem State.setRes_img : (s.setRes r0 r1).img = s.img := rfl
@[simp] theorem State.setRes_fb : (s.setRes r0 r1).fb = s.fb := rfl
@[simp] theorem State.setRes_out : (s.setRes r0 r1).out = s.out := rfl
@[simp] theorem State.setRes_map : (s.setRes r0 r1).map = s.map := rfl
@[simp] theorem State.setRes_dt : (s.setRes r0 r1).dt = s.dt := rfl
@[simp] theorem State.setRes_tb : (s.setRes r0 r1).tb = s.tb := rfl
@[simp] theorem State.setRes_binding : (s.setRes r0 r1).binding = s.binding := rfl
@[simp] theorem State.setRes_epoch : (s.setRes r0 r1).epoch = s.epoch := rfl
@[simp] theorem State.setRes_tileEpoch : (s.setRes r0 r1).tileEpoch = s.tileEpoch := rfl
@[simp] theorem State.setRes_inReset : (s.setRes r0 r1).inReset = s.inReset := rfl
@[simp] theorem State.setRes_pending : (s.setRes r0 r1).pending = s.pending := rfl
@[simp] theorem State.setRes_busData : (s.setRes r0 r1).busData = s.busData := rfl

end

/-! ### setTable -/

section
variable (s : State) (t : TileTable)

@[simp] theorem State.setTable_err : (s.setTable t).err = s.err := rfl
@[simp] theorem State.setTable_errCmd : (s.setTable t).errCmd = s.errCmd := rfl
@[simp] theorem State.setTable_flags : (s.setTable t).flags = s.flags := rfl
@[simp] theorem State.setTable_arg0 : (s.setTable t).arg0 = s.arg0 := rfl
@[simp] theorem State.setTable_arg1 : (s.setTable t).arg1 = s.arg1 := rfl
@[simp] theorem State.setTable_res0 : (s.setTable t).res0 = s.res0 := rfl
@[simp] theorem State.setTable_res1 : (s.setTable t).res1 = s.res1 := rfl
@[simp] theorem State.setTable_mode : (s.setTable t).mode = s.mode := rfl
@[simp] theorem State.setTable_width : (s.setTable t).width = s.width := rfl
@[simp] theorem State.setTable_height : (s.setTable t).height = s.height := rfl
@[simp] theorem State.setTable_colors : (s.setTable t).colors = s.colors := rfl
@[simp] theorem State.setTable_ctrl : (s.setTable t).ctrl = s.ctrl := rfl
@[simp] theorem State.setTable_lineWidth : (s.setTable t).lineWidth = s.lineWidth := rfl
@[simp] theorem State.setTable_origin : (s.setTable t).origin = s.origin := rfl
@[simp] theorem State.setTable_placeX : (s.setTable t).placeX = s.placeX := rfl
@[simp] theorem State.setTable_placeY : (s.setTable t).placeY = s.placeY := rfl
@[simp] theorem State.setTable_tileW : (s.setTable t).tileW = s.tileW := rfl
@[simp] theorem State.setTable_tileH : (s.setTable t).tileH = s.tileH := rfl
@[simp] theorem State.setTable_palLen : (s.setTable t).palLen = s.palLen := rfl
@[simp] theorem State.setTable_fbLen : (s.setTable t).fbLen = s.fbLen := rfl
@[simp] theorem State.setTable_outLen : (s.setTable t).outLen = s.outLen := rfl
@[simp] theorem State.setTable_mapLen : (s.setTable t).mapLen = s.mapLen := rfl
@[simp] theorem State.setTable_nfCnt : (s.setTable t).nfCnt = s.nfCnt := rfl
@[simp] theorem State.setTable_aoorCnt : (s.setTable t).aoorCnt = s.aoorCnt := rfl
@[simp] theorem State.setTable_tovfCnt : (s.setTable t).tovfCnt = s.tovfCnt := rfl
@[simp] theorem State.setTable_dtSel : (s.setTable t).dtSel = s.dtSel := rfl
@[simp] theorem State.setTable_dtASel : (s.setTable t).dtASel = s.dtASel := rfl
@[simp] theorem State.setTable_tbSel : (s.setTable t).tbSel = s.tbSel := rfl
@[simp] theorem State.setTable_pal : (s.setTable t).pal = s.pal := rfl
@[simp] theorem State.setTable_img : (s.setTable t).img = s.img := rfl
@[simp] theorem State.setTable_fb : (s.setTable t).fb = s.fb := rfl
@[simp] theorem State.setTable_out : (s.setTable t).out = s.out := rfl
@[simp] theorem State.setTable_map : (s.setTable t).map = s.map := rfl
@[simp] theorem State.setTable_dt : (s.setTable t).dt = s.dt := rfl
@[simp] theorem State.setTable_tb : (s.setTable t).tb = t := rfl
@[simp] theorem State.setTable_binding : (s.setTable t).binding = s.binding := rfl
@[simp] theorem State.setTable_epoch : (s.setTable t).epoch = s.epoch := rfl
@[simp] theorem State.setTable_tileEpoch : (s.setTable t).tileEpoch = s.tileEpoch + 1 := rfl
@[simp] theorem State.setTable_inReset : (s.setTable t).inReset = s.inReset := rfl
@[simp] theorem State.setTable_pending : (s.setTable t).pending = s.pending := rfl
@[simp] theorem State.setTable_busData : (s.setTable t).busData = s.busData := rfl

end

/-! ### raise -/

section
variable (s : State) (e : Err) (w : Word)

@[simp] theorem State.raise_err : (s.raise e w).err = BitVec.ofNat 32 e.code := rfl
@[simp] theorem State.raise_errCmd : (s.raise e w).errCmd = w := rfl
@[simp] theorem State.raise_flags : (s.raise e w).flags = s.flags ||| e.flagBit := rfl
@[simp] theorem State.raise_arg0 : (s.raise e w).arg0 = s.arg0 := rfl
@[simp] theorem State.raise_arg1 : (s.raise e w).arg1 = s.arg1 := rfl
@[simp] theorem State.raise_res0 : (s.raise e w).res0 = s.res0 := rfl
@[simp] theorem State.raise_res1 : (s.raise e w).res1 = s.res1 := rfl
@[simp] theorem State.raise_mode : (s.raise e w).mode = s.mode := rfl
@[simp] theorem State.raise_width : (s.raise e w).width = s.width := rfl
@[simp] theorem State.raise_height : (s.raise e w).height = s.height := rfl
@[simp] theorem State.raise_colors : (s.raise e w).colors = s.colors := rfl
@[simp] theorem State.raise_ctrl : (s.raise e w).ctrl = s.ctrl := rfl
@[simp] theorem State.raise_lineWidth : (s.raise e w).lineWidth = s.lineWidth := rfl
@[simp] theorem State.raise_origin : (s.raise e w).origin = s.origin := rfl
@[simp] theorem State.raise_placeX : (s.raise e w).placeX = s.placeX := rfl
@[simp] theorem State.raise_placeY : (s.raise e w).placeY = s.placeY := rfl
@[simp] theorem State.raise_tileW : (s.raise e w).tileW = s.tileW := rfl
@[simp] theorem State.raise_tileH : (s.raise e w).tileH = s.tileH := rfl
@[simp] theorem State.raise_palLen : (s.raise e w).palLen = s.palLen := rfl
@[simp] theorem State.raise_fbLen : (s.raise e w).fbLen = s.fbLen := rfl
@[simp] theorem State.raise_outLen : (s.raise e w).outLen = s.outLen := rfl
@[simp] theorem State.raise_mapLen : (s.raise e w).mapLen = s.mapLen := rfl
@[simp] theorem State.raise_nfCnt : (s.raise e w).nfCnt = s.nfCnt := rfl
@[simp] theorem State.raise_aoorCnt : (s.raise e w).aoorCnt = s.aoorCnt := rfl
@[simp] theorem State.raise_tovfCnt : (s.raise e w).tovfCnt = s.tovfCnt := rfl
@[simp] theorem State.raise_dtSel : (s.raise e w).dtSel = s.dtSel := rfl
@[simp] theorem State.raise_dtASel : (s.raise e w).dtASel = s.dtASel := rfl
@[simp] theorem State.raise_tbSel : (s.raise e w).tbSel = s.tbSel := rfl
@[simp] theorem State.raise_pal : (s.raise e w).pal = s.pal := rfl
@[simp] theorem State.raise_img : (s.raise e w).img = s.img := rfl
@[simp] theorem State.raise_fb : (s.raise e w).fb = s.fb := rfl
@[simp] theorem State.raise_out : (s.raise e w).out = s.out := rfl
@[simp] theorem State.raise_map : (s.raise e w).map = s.map := rfl
@[simp] theorem State.raise_dt : (s.raise e w).dt = s.dt := rfl
@[simp] theorem State.raise_tb : (s.raise e w).tb = s.tb := rfl
@[simp] theorem State.raise_binding : (s.raise e w).binding = s.binding := rfl
@[simp] theorem State.raise_epoch : (s.raise e w).epoch = s.epoch := rfl
@[simp] theorem State.raise_tileEpoch : (s.raise e w).tileEpoch = s.tileEpoch := rfl
@[simp] theorem State.raise_inReset : (s.raise e w).inReset = s.inReset := rfl
@[simp] theorem State.raise_pending : (s.raise e w).pending = s.pending := rfl
@[simp] theorem State.raise_busData : (s.raise e w).busData = s.busData := rfl

end

/-! ### flag -/

section
variable (s : State) (e : Event) (n : Nat)

@[simp] theorem State.flag_err : (s.flag e n).err = if n = 0 then s.err else s.err ||| e.evtBit := rfl
@[simp] theorem State.flag_errCmd : (s.flag e n).errCmd = s.errCmd := rfl
@[simp] theorem State.flag_flags : (s.flag e n).flags = if n = 0 then s.flags else s.flags ||| e.err.flagBit := rfl
@[simp] theorem State.flag_arg0 : (s.flag e n).arg0 = s.arg0 := rfl
@[simp] theorem State.flag_arg1 : (s.flag e n).arg1 = s.arg1 := rfl
@[simp] theorem State.flag_res0 : (s.flag e n).res0 = s.res0 := rfl
@[simp] theorem State.flag_res1 : (s.flag e n).res1 = s.res1 := rfl
@[simp] theorem State.flag_mode : (s.flag e n).mode = s.mode := rfl
@[simp] theorem State.flag_width : (s.flag e n).width = s.width := rfl
@[simp] theorem State.flag_height : (s.flag e n).height = s.height := rfl
@[simp] theorem State.flag_colors : (s.flag e n).colors = s.colors := rfl
@[simp] theorem State.flag_ctrl : (s.flag e n).ctrl = s.ctrl := rfl
@[simp] theorem State.flag_lineWidth : (s.flag e n).lineWidth = s.lineWidth := rfl
@[simp] theorem State.flag_origin : (s.flag e n).origin = s.origin := rfl
@[simp] theorem State.flag_placeX : (s.flag e n).placeX = s.placeX := rfl
@[simp] theorem State.flag_placeY : (s.flag e n).placeY = s.placeY := rfl
@[simp] theorem State.flag_tileW : (s.flag e n).tileW = s.tileW := rfl
@[simp] theorem State.flag_tileH : (s.flag e n).tileH = s.tileH := rfl
@[simp] theorem State.flag_palLen : (s.flag e n).palLen = s.palLen := rfl
@[simp] theorem State.flag_fbLen : (s.flag e n).fbLen = s.fbLen := rfl
@[simp] theorem State.flag_outLen : (s.flag e n).outLen = s.outLen := rfl
@[simp] theorem State.flag_mapLen : (s.flag e n).mapLen = s.mapLen := rfl
@[simp] theorem State.flag_nfCnt : (s.flag e n).nfCnt = (match e with | .notFound => satAdd s.nfCnt n | .addressOutOfRange | .capacityExceeded => s.nfCnt) := rfl
@[simp] theorem State.flag_aoorCnt : (s.flag e n).aoorCnt = (match e with | .addressOutOfRange => satAdd s.aoorCnt n | .notFound | .capacityExceeded => s.aoorCnt) := rfl
@[simp] theorem State.flag_tovfCnt : (s.flag e n).tovfCnt = s.tovfCnt := rfl
@[simp] theorem State.flag_dtSel : (s.flag e n).dtSel = s.dtSel := rfl
@[simp] theorem State.flag_dtASel : (s.flag e n).dtASel = s.dtASel := rfl
@[simp] theorem State.flag_tbSel : (s.flag e n).tbSel = s.tbSel := rfl
@[simp] theorem State.flag_pal : (s.flag e n).pal = s.pal := rfl
@[simp] theorem State.flag_img : (s.flag e n).img = s.img := rfl
@[simp] theorem State.flag_fb : (s.flag e n).fb = s.fb := rfl
@[simp] theorem State.flag_out : (s.flag e n).out = s.out := rfl
@[simp] theorem State.flag_map : (s.flag e n).map = s.map := rfl
@[simp] theorem State.flag_dt : (s.flag e n).dt = s.dt := rfl
@[simp] theorem State.flag_tb : (s.flag e n).tb = s.tb := rfl
@[simp] theorem State.flag_binding : (s.flag e n).binding = s.binding := rfl
@[simp] theorem State.flag_epoch : (s.flag e n).epoch = s.epoch := rfl
@[simp] theorem State.flag_tileEpoch : (s.flag e n).tileEpoch = s.tileEpoch := rfl
@[simp] theorem State.flag_inReset : (s.flag e n).inReset = s.inReset := rfl
@[simp] theorem State.flag_pending : (s.flag e n).pending = s.pending := rfl
@[simp] theorem State.flag_busData : (s.flag e n).busData = s.busData := rfl

end

/-! ### softReset -/

section
variable (s : State)

@[simp] theorem State.softReset_err : (s.softReset).err = 0 := rfl
@[simp] theorem State.softReset_errCmd : (s.softReset).errCmd = 0 := rfl
@[simp] theorem State.softReset_flags : (s.softReset).flags = 0 := rfl
@[simp] theorem State.softReset_arg0 : (s.softReset).arg0 = 0 := rfl
@[simp] theorem State.softReset_arg1 : (s.softReset).arg1 = 0 := rfl
@[simp] theorem State.softReset_res0 : (s.softReset).res0 = 0 := rfl
@[simp] theorem State.softReset_res1 : (s.softReset).res1 = 0 := rfl
@[simp] theorem State.softReset_mode : (s.softReset).mode = 0 := rfl
@[simp] theorem State.softReset_width : (s.softReset).width = 0 := rfl
@[simp] theorem State.softReset_height : (s.softReset).height = 0 := rfl
@[simp] theorem State.softReset_colors : (s.softReset).colors = 0 := rfl
@[simp] theorem State.softReset_ctrl : (s.softReset).ctrl = 0 := rfl
@[simp] theorem State.softReset_lineWidth : (s.softReset).lineWidth = 0 := rfl
@[simp] theorem State.softReset_origin : (s.softReset).origin = 0 := rfl
@[simp] theorem State.softReset_placeX : (s.softReset).placeX = 0 := rfl
@[simp] theorem State.softReset_placeY : (s.softReset).placeY = 0 := rfl
@[simp] theorem State.softReset_tileW : (s.softReset).tileW = 0 := rfl
@[simp] theorem State.softReset_tileH : (s.softReset).tileH = 0 := rfl
@[simp] theorem State.softReset_palLen : (s.softReset).palLen = ⟨0, 0⟩ := rfl
@[simp] theorem State.softReset_fbLen : (s.softReset).fbLen = ⟨0, 0⟩ := rfl
@[simp] theorem State.softReset_outLen : (s.softReset).outLen = 0 := rfl
@[simp] theorem State.softReset_mapLen : (s.softReset).mapLen = 0 := rfl
@[simp] theorem State.softReset_nfCnt : (s.softReset).nfCnt = 0 := rfl
@[simp] theorem State.softReset_aoorCnt : (s.softReset).aoorCnt = 0 := rfl
@[simp] theorem State.softReset_tovfCnt : (s.softReset).tovfCnt = 0 := rfl
@[simp] theorem State.softReset_dtSel : (s.softReset).dtSel = 0 := rfl
@[simp] theorem State.softReset_dtASel : (s.softReset).dtASel = 0 := rfl
@[simp] theorem State.softReset_tbSel : (s.softReset).tbSel = 0 := rfl
@[simp] theorem State.softReset_pal : (s.softReset).pal = s.pal := rfl
@[simp] theorem State.softReset_img : (s.softReset).img = s.img := rfl
@[simp] theorem State.softReset_fb : (s.softReset).fb = s.fb := rfl
@[simp] theorem State.softReset_out : (s.softReset).out = s.out := rfl
@[simp] theorem State.softReset_map : (s.softReset).map = s.map := rfl
@[simp] theorem State.softReset_dt : (s.softReset).dt = [] := rfl
@[simp] theorem State.softReset_tb : (s.softReset).tb = TileTable.empty := rfl
@[simp] theorem State.softReset_binding : (s.softReset).binding = s.binding := rfl
@[simp] theorem State.softReset_epoch : (s.softReset).epoch = s.epoch := rfl
@[simp] theorem State.softReset_tileEpoch : (s.softReset).tileEpoch = s.tileEpoch + 1 := rfl
@[simp] theorem State.softReset_inReset : (s.softReset).inReset = s.inReset := rfl
@[simp] theorem State.softReset_pending : (s.softReset).pending = s.pending := rfl
@[simp] theorem State.softReset_busData : (s.softReset).busData = s.busData := rfl

end

/-! ### hardReset -/

section
variable (s : State)

@[simp] theorem State.hardReset_err : (s.hardReset).err = 0 := rfl
@[simp] theorem State.hardReset_errCmd : (s.hardReset).errCmd = 0 := rfl
@[simp] theorem State.hardReset_flags : (s.hardReset).flags = 0 := rfl
@[simp] theorem State.hardReset_arg0 : (s.hardReset).arg0 = 0 := rfl
@[simp] theorem State.hardReset_arg1 : (s.hardReset).arg1 = 0 := rfl
@[simp] theorem State.hardReset_res0 : (s.hardReset).res0 = 0 := rfl
@[simp] theorem State.hardReset_res1 : (s.hardReset).res1 = 0 := rfl
@[simp] theorem State.hardReset_mode : (s.hardReset).mode = 0 := rfl
@[simp] theorem State.hardReset_width : (s.hardReset).width = 0 := rfl
@[simp] theorem State.hardReset_height : (s.hardReset).height = 0 := rfl
@[simp] theorem State.hardReset_colors : (s.hardReset).colors = 0 := rfl
@[simp] theorem State.hardReset_ctrl : (s.hardReset).ctrl = 0 := rfl
@[simp] theorem State.hardReset_lineWidth : (s.hardReset).lineWidth = 0 := rfl
@[simp] theorem State.hardReset_origin : (s.hardReset).origin = 0 := rfl
@[simp] theorem State.hardReset_placeX : (s.hardReset).placeX = 0 := rfl
@[simp] theorem State.hardReset_placeY : (s.hardReset).placeY = 0 := rfl
@[simp] theorem State.hardReset_tileW : (s.hardReset).tileW = 0 := rfl
@[simp] theorem State.hardReset_tileH : (s.hardReset).tileH = 0 := rfl
@[simp] theorem State.hardReset_palLen : (s.hardReset).palLen = ⟨0, 0⟩ := rfl
@[simp] theorem State.hardReset_fbLen : (s.hardReset).fbLen = ⟨0, 0⟩ := rfl
@[simp] theorem State.hardReset_outLen : (s.hardReset).outLen = 0 := rfl
@[simp] theorem State.hardReset_mapLen : (s.hardReset).mapLen = 0 := rfl
@[simp] theorem State.hardReset_nfCnt : (s.hardReset).nfCnt = 0 := rfl
@[simp] theorem State.hardReset_aoorCnt : (s.hardReset).aoorCnt = 0 := rfl
@[simp] theorem State.hardReset_tovfCnt : (s.hardReset).tovfCnt = 0 := rfl
@[simp] theorem State.hardReset_dtSel : (s.hardReset).dtSel = 0 := rfl
@[simp] theorem State.hardReset_dtASel : (s.hardReset).dtASel = 0 := rfl
@[simp] theorem State.hardReset_tbSel : (s.hardReset).tbSel = 0 := rfl
@[simp] theorem State.hardReset_pal : (s.hardReset).pal = ⟨[], []⟩ := rfl
@[simp] theorem State.hardReset_img : (s.hardReset).img = ⟨[], []⟩ := rfl
@[simp] theorem State.hardReset_fb : (s.hardReset).fb = ⟨[], []⟩ := rfl
@[simp] theorem State.hardReset_out : (s.hardReset).out = [] := rfl
@[simp] theorem State.hardReset_map : (s.hardReset).map = [] := rfl
@[simp] theorem State.hardReset_dt : (s.hardReset).dt = [] := rfl
@[simp] theorem State.hardReset_tb : (s.hardReset).tb = TileTable.empty := rfl
@[simp] theorem State.hardReset_binding : (s.hardReset).binding = s.binding := rfl
@[simp] theorem State.hardReset_epoch : (s.hardReset).epoch = s.epoch + 1 := rfl
@[simp] theorem State.hardReset_tileEpoch : (s.hardReset).tileEpoch = s.tileEpoch + 1 := rfl
@[simp] theorem State.hardReset_inReset : (s.hardReset).inReset = false := rfl
@[simp] theorem State.hardReset_pending : (s.hardReset).pending = s.pending := rfl
@[simp] theorem State.hardReset_busData : (s.hardReset).busData = none := rfl

end

/-! ### What a command reads of the state does not depend on the report -/

section
variable (s : State) (m : GMode) (sl : Slot)

@[simp] theorem State.gmode_clearReport : s.clearReport.gmode? = s.gmode? := rfl
@[simp] theorem State.sprite_clearReport : s.clearReport.sprite = s.sprite := rfl
@[simp] theorem State.overscan_clearReport : s.clearReport.overscan = s.overscan := rfl
@[simp] theorem State.screen_clearReport : s.clearReport.screen = s.screen := rfl
@[simp] theorem State.modeWidth_clearReport : s.clearReport.modeWidth m = s.modeWidth m := rfl
@[simp] theorem State.positions_clearReport : s.clearReport.positions m = s.positions m := rfl
@[simp] theorem State.frameLen_clearReport : s.clearReport.frameLen m = s.frameLen m := rfl
@[simp] theorem State.imageMisses_clearReport : s.clearReport.imageMisses m sl = s.imageMisses m sl := rfl
@[simp] theorem State.encodedFrame_clearReport : s.clearReport.encodedFrame m sl = s.encodedFrame m sl := rfl
@[simp] theorem State.frameIndices_clearReport : s.clearReport.frameIndices m sl = s.frameIndices m sl := rfl
@[simp] theorem State.frameChanges_clearReport : s.clearReport.frameChanges m = s.frameChanges m := rfl
@[simp] theorem State.imageChanges_clearReport : s.clearReport.imageChanges m = s.imageChanges m := rfl
@[simp] theorem State.outRecords_clearReport : s.clearReport.outRecords = s.outRecords := rfl
@[simp] theorem State.ntiles_clearReport : s.clearReport.ntiles = s.ntiles := rfl
@[simp] theorem State.capturedGeometry_clearReport : s.clearReport.capturedGeometry m = s.capturedGeometry m := rfl
@[simp] theorem State.cellIndices_clearReport : s.clearReport.cellIndices sl = s.cellIndices sl := rfl
@[simp] theorem State.palAt_clearReport (i : Nat) : s.clearReport.palAt sl i = s.palAt sl i := rfl
@[simp] theorem State.imgAt_clearReport (i : Nat) : s.clearReport.imgAt sl i = s.imgAt sl i := rfl
@[simp] theorem State.fbAt_clearReport (i : Nat) : s.clearReport.fbAt sl i = s.fbAt sl i := rfl
@[simp] theorem State.lookup_clearReport (c : Word) : s.clearReport.lookup sl c = s.lookup sl c := rfl
@[simp] theorem State.loc_clearReport (g y : Nat) : s.clearReport.loc m g y = s.loc m g y := rfl
@[simp] theorem State.packGroup_clearReport (g y : Nat) : s.clearReport.packGroup m sl g y = s.packGroup m sl g y := rfl
@[simp] theorem State.indexColour_clearReport (i : Nat) : s.clearReport.indexColour sl i = s.indexColour sl i := rfl
@[simp] theorem State.cellIndex_clearReport (i : Nat) : s.clearReport.cellIndex sl i = s.cellIndex sl i := rfl
@[simp] theorem State.outAt_clearReport (i : Nat) : s.clearReport.outAt i = s.outAt i := rfl
@[simp] theorem State.mapAt_clearReport (i : Nat) : s.clearReport.mapAt i = s.mapAt i := rfl

end

end Sys2Proof.Machine
end

