-- ==== Sys2Proof/Laws/Ops.lean ====
section
/-! SUPPORT. What each shared operation can do, said once: the prechecks, a guarded command, a command that reads
MODE, the report operations, and a step. -/

namespace Sys2Proof.Machine

/-! ### Prechecks -/

@[simp] theorem firstFailure_nil : firstFailure [] = none := rfl

@[simp] theorem firstFailure_cons (failed : Bool) (e : Err) (cs : List Check) :
    firstFailure ((failed, e) :: cs) = if failed then some e else firstFailure cs := rfl

/-- No test fails. -/
theorem firstFailure_eq_none {cs : List Check} :
    firstFailure cs = none ↔ ∀ c ∈ cs, c.1 = false := by
  induction cs with
  | nil => simp
  | cons c cs ih =>
    obtain ⟨b, e⟩ := c
    cases b <;> simp [ih]

/-- The reported error belongs to a failing test before which none fails. -/
theorem firstFailure_eq_some {cs : List Check} {e : Err} (h : firstFailure cs = some e) :
    ∃ pre post, cs = pre ++ (true, e) :: post ∧ ∀ c ∈ pre, c.1 = false := by
  induction cs with
  | nil => simp at h
  | cons c cs ih =>
    obtain ⟨b, e'⟩ := c
    cases b with
    | true => exact ⟨[], cs, by simp_all, by simp⟩
    | false =>
      obtain ⟨pre, post, rfl, hp⟩ := ih (by simpa using h)
      exact ⟨(false, e') :: pre, post, rfl, by simpa using hp⟩

/-! ### Commands -/

/-- A guarded command answers a next state in every case: the report of its first failing test, or its operation. -/
theorem guarded_cases (w : Word) (cs : List Check) (s : State) (op : State → State) :
    (∃ e, firstFailure cs = some e ∧ guarded w cs s op = .next (s.raise e w)) ∨
    (firstFailure cs = none ∧ guarded w cs s op = .next (op s.clearReport)) := by
  unfold guarded
  cases h : firstFailure cs with
  | none => exact .inr ⟨rfl, rfl⟩
  | some e => exact .inl ⟨e, rfl, rfl⟩

theorem guarded_of_pass {w : Word} {cs : List Check} {s : State} {op : State → State}
    (h : firstFailure cs = none) : guarded w cs s op = .next (op s.clearReport) := by simp [guarded, h]

theorem guarded_of_fail {w : Word} {cs : List Check} {s : State} {op : State → State} {e : Err}
    (h : firstFailure cs = some e) : guarded w cs s op = .next (s.raise e w) := by simp [guarded, h]

@[simp] theorem guarded_nil (w : Word) (s : State) (op : State → State) :
    guarded w [] s op = .next (op s.clearReport) := rfl

theorem withMode_of_mode {w : Word} {s : State} {k : GMode → Host.Outcome State Fault Refusal} {m : GMode}
    (h : s.gmode? = some m) : withMode w s k = k m := by simp [withMode, h]

theorem withMode_of_reserved {w : Word} {s : State} {k : GMode → Host.Outcome State Fault Refusal}
    (h : s.gmode? = none) : withMode w s k = .next (s.raise .badConfig w) := by simp [withMode, h]

/-- A command that reads MODE reports BadConfig, or goes on with the mode. -/
theorem withMode_cases (w : Word) (s : State) (k : GMode → Host.Outcome State Fault Refusal) :
    (s.gmode? = none ∧ withMode w s k = .next (s.raise .badConfig w)) ∨
    (∃ m, s.gmode? = some m ∧ withMode w s k = k m) := by
  cases h : s.gmode? with
  | none => exact .inl ⟨rfl, withMode_of_reserved h⟩
  | some m => exact .inr ⟨m, rfl, withMode_of_mode h⟩

/-- MODE is the reserved value exactly when it is no graphics mode (10_state.md R28). -/
theorem gmode_eq_none {s : State} : s.gmode? = none ↔ s.mode = 3 := by
  have h : ∀ v : BitVec 2, (match v.toNat with
      | 0 => some GMode.m0
      | 1 => some GMode.m1
      | 2 => some GMode.m2
      | _ => none) = none ↔ v = 3 := by decide
  exact h s.mode

/-! ### Reports -/

@[simp] theorem satAdd_zero (c : Word) : satAdd c 0 = c := by
  have h : c.toNat < 2 ^ 32 := c.isLt
  apply BitVec.eq_of_toNat_eq
  simp only [satAdd, BitVec.toNat_ofNat, Nat.add_zero]
  omega

@[simp] theorem toNat_satAdd (c : Word) (n : Nat) : (satAdd c n).toNat = min (c.toNat + n) (2 ^ 32 - 1) := by
  simp only [satAdd, BitVec.toNat_ofNat]
  omega

/-- No event changes nothing. -/
@[simp] theorem State.flag_zero (s : State) (e : Event) : s.flag e 0 = s := by
  cases e <;> simp [State.flag]

/-! ### The step -/

/-- A step takes the oldest pending operation, or idles when there is none. -/
theorem step_cases (s : State) :
    (s.pending = [] ∧ step s = .next s) ∨
    (∃ op rest, s.pending = op :: rest ∧ step s = runOp op { s with pending := rest }) := by
  unfold step stepHost
  cases h : s.pending with
  | nil => exact .inl ⟨rfl, rfl⟩
  | cons op rest => exact .inr ⟨op, rest, rfl, rfl⟩

/-- What one input can do, when the step answers a next state. -/
theorem runOp_next {op : HostOp} {s t : State} (h : runOp op s = .next t) :
    (∃ a, op = .resetLine a ∧ t = resetLine a s) ∨
    (∃ wa, op = .read wa ∧ s.inReset = false ∧ hostRead wa s = .next t) ∨
    (∃ wa v, op = .write wa v ∧ s.inReset = false ∧ hostWrite wa v s = .next t) := by
  cases op with
  | resetLine a => exact .inl ⟨a, rfl, by simpa [runOp] using h.symm⟩
  | read wa =>
    cases hr : s.inReset with
    | true => simp [runOp, hr] at h
    | false => exact .inr (.inl ⟨wa, rfl, rfl, by simpa [runOp, hr] using h⟩)
  | write wa v =>
    cases hr : s.inReset with
    | true => simp [runOp, hr] at h
    | false => exact .inr (.inr ⟨wa, v, rfl, rfl, by simpa [runOp, hr] using h⟩)

/-- A read that answers only returns a value. -/
theorem hostRead_next {wa : BusAddr} {s t : State} (h : hostRead wa s = .next t) :
    ∃ d, t = { s with busData := some d } := by
  unfold hostRead at h
  split at h <;> simp at h <;> exact ⟨_, h.symm⟩

/-- A write that answers runs a command, writes a register or writes an element. -/
theorem hostWrite_next {wa : BusAddr} {v : Word} {s t : State} (h : hostWrite wa v s = .next t) :
    (locate wa.toNat = .reg .CMD ∧ runCommand v { s with busData := none } = .next t) ∨
    (∃ r, r ≠ .CMD ∧ locate wa.toNat = .reg r ∧ t = State.writeReg { s with busData := none } r v) ∨
    (∃ m i, locate wa.toNat = .elem m i ∧ t = State.writeElem { s with busData := none } i v m) := by
  unfold hostWrite at h
  split at h
  · exact .inl ⟨by assumption, h⟩
  · rename_i r hr hl
    refine .inr (.inl ⟨r, ?_, hl, by simpa using h.symm⟩)
    rintro rfl
    exact hr rfl
  · rename_i m i hl
    exact .inr (.inr ⟨m, i, hl, by simpa using h.symm⟩)
  · simp at h

/-- A command word runs the command it decodes to, or raises IllegalCommand. -/
theorem runCommand_cases (w : Word) (s : State) :
    (∃ i, decode w = .ok i ∧ runCommand w s = exec i s) ∨
    (∃ e, decode w = .error e ∧ runCommand w s = .next (s.raise .illegalCommand w)) := by
  unfold runCommand
  cases h : decode w with
  | ok i => exact .inl ⟨i, rfl, rfl⟩
  | error e => exact .inr ⟨e, rfl, rfl⟩

end Sys2Proof.Machine
end

