-- ==== Sys2Proof/Laws/Operands.lean ====
section
/-! SUPPORT. What each shared operand form and table operation can do, said once: look-ups, packed bytes, screen
positions, frame positions, writes of many elements, and when the prechecks of each command pass. -/

namespace Sys2Proof.Machine

/-! ### Look-ups -/

/-- A hit is the lowest position below PALLEN that holds the colour. -/
theorem State.lookup_eq_some {s : State} {sl : Slot} {c : Word} {i : Nat} :
    s.lookup sl c = some i ↔
      i < (s.palLen.get sl).toNat ∧ s.palAt sl i = c ∧ ∀ j < i, s.palAt sl j ≠ c := by
  rw [State.lookup, List.find?_range_eq_some]
  constructor
  · rintro ⟨h1, h2, h3⟩
    exact ⟨List.mem_range.1 h2, by simpa using h1, fun j hj => by simpa using h3 j hj⟩
  · rintro ⟨h1, h2, h3⟩
    exact ⟨by simpa using h2, List.mem_range.2 h1, fun j hj => by simpa using h3 j hj⟩

/-- A miss: no position below PALLEN holds the colour. -/
theorem State.lookup_eq_none {s : State} {sl : Slot} {c : Word} :
    s.lookup sl c = none ↔ ∀ i < (s.palLen.get sl).toNat, s.palAt sl i ≠ c := by
  simp [State.lookup]

/-- A found entry is the first with the content. -/
theorem tileIndex_eq_some {t : List Byte} {es : List TileEntry} {k : Nat} :
    tileIndex t es = some k ↔
      (∃ e, es[k]? = some e ∧ e.content = t) ∧ ∀ j < k, ∀ f, es[j]? = some f → f.content ≠ t := by
  rw [tileIndex, List.findIdx?_eq_some_iff_getElem]
  constructor
  · rintro ⟨h, he, hl⟩
    refine ⟨⟨es[k], by simp [h], by simpa using he⟩, fun j hj f hf => ?_⟩
    obtain ⟨hj', rfl⟩ := List.getElem?_eq_some_iff.1 hf
    simpa using hl j hj
  · rintro ⟨⟨e, he, rfl⟩, hl⟩
    obtain ⟨hk, rfl⟩ := List.getElem?_eq_some_iff.1 he
    exact ⟨hk, by simp, fun j hj => by simpa using hl j hj _ (List.getElem?_eq_getElem (by omega))⟩

/-- Nothing is found when no entry has the content. -/
theorem tileIndex_eq_none {t : List Byte} {es : List TileEntry} :
    tileIndex t es = none ↔ ∀ e ∈ es, e.content ≠ t := by
  simp [tileIndex]

/-- The two answers of a look-up that can miss. -/
@[simp] theorem State.reportLookup_some (s : State) (i : Nat) :
    s.reportLookup (some i) = s.setRes (BitVec.ofNat 32 i) 0 := rfl
@[simp] theorem State.reportLookup_none (s : State) :
    s.reportLookup none = (s.flag .notFound 1).setRes 0 1 := rfl

/-! ### Packed bytes -/

theorem mem_planes {m : GMode} {k j : Nat} : (k, j) ∈ planes m ↔ k < m.ppb ∧ j < m.bpp := by simp [planes]

/-- One bit of a number, moved to place q. -/
theorem testBit_one_bit (x j q i : Nat) :
    (((x >>> j) &&& 1) <<< q).testBit i = (decide (q = i) && x.testBit j) := by
  rw [Nat.testBit_shiftLeft, Nat.testBit_and, Nat.testBit_shiftRight]
  by_cases h : q = i
  · subst h; simp
  · by_cases h2 : q ≤ i
    · have : Nat.testBit 1 (i - q) = false := Nat.testBit_lt_two_pow (Nat.one_lt_two_pow (by omega))
      simp [h, this]
    · simp [h, h2]

theorem testBit_foldl_or {α : Type} (f : α → Nat) (i : Nat) : ∀ (l : List α) (a : Nat),
    (l.foldl (fun acc x => acc ||| f x) a).testBit i = (a.testBit i || l.any fun x => (f x).testBit i)
  | [], a => by simp
  | x :: l, a => by rw [List.foldl_cons, testBit_foldl_or f i l, List.any_cons, Nat.testBit_or, Bool.or_assoc]

/-- A bit of a packed byte is set when some index bit that the table puts there is. -/
theorem packBy_getLsbD (T : PosTable) (m : GMode) (p : List Nat) {i : Nat} (hi : i < 8) :
    (packBy T m p).getLsbD i =
      (planes m).any fun kj => decide (T m kj.1 kj.2 = i) && (p.getD kj.1 0).testBit kj.2 := by
  rw [packBy, BitVec.getLsbD_ofNat, testBit_foldl_or]
  simp only [hi, testBit_one_bit, decide_true, Nat.zero_testBit, Bool.true_and, Bool.false_or]

/-- Digits of 0 or 1 at rising places are the bits of their sum. -/
theorem sum_bits (f : Nat → Nat) (hf : ∀ j, f j ≤ 1) : ∀ n,
    ((List.range n).map fun j => f j <<< j).sum < 2 ^ n ∧
    ∀ j < n, ((List.range n).map fun j => f j <<< j).sum.testBit j = decide (f j = 1)
  | 0 => by simp
  | n + 1 => by
    obtain ⟨h1, h2⟩ := sum_bits f hf n
    rw [List.range_succ, List.map_append, List.sum_append]
    simp only [List.map_cons, List.map_nil, List.sum_cons, List.sum_nil, Nat.add_zero]
    generalize ((List.range n).map fun j => f j <<< j).sum = S at *
    have e : S + f n <<< n = 2 ^ n * f n + S := by rw [Nat.shiftLeft_eq]; ring
    rw [e]
    refine ⟨?_, fun j hj => ?_⟩
    · have := hf n; rw [pow_succ]; nlinarith
    · rw [Nat.testBit_two_pow_mul_add _ h1]
      split
      · exact h2 j ‹_›
      · obtain rfl : j = n := by omega
        have := hf j
        have : f j = 0 ∨ f j = 1 := by omega
        rcases this with h | h <;> simp [h]

theorem unpackAtBy_lt (T : PosTable) (m : GMode) (b : Byte) (k : Nat) : unpackAtBy T m b k < 2 ^ m.bpp :=
  (sum_bits (fun j => (b.toNat >>> T m k j) &&& 1) (fun _ => Nat.and_le_right) m.bpp).1

/-- Bit j of an unpacked index is the bit of the byte that the table names. -/
theorem unpackAtBy_testBit (T : PosTable) (m : GMode) (b : Byte) (k : Nat) {j : Nat} (hj : j < m.bpp) :
    (unpackAtBy T m b k).testBit j = b.getLsbD (T m k j) := by
  rw [unpackAtBy, (sum_bits _ (fun _ => Nat.and_le_right) m.bpp).2 j hj, BitVec.getLsbD, Nat.and_one_is_mod,
    Nat.testBit_eq_decide_div_mod_eq, Nat.shiftRight_eq_div_pow]

/-! ### Screen positions -/

theorem Screen.inRange_iff {c : Screen} {g y : Nat} : c.inRange g y = true ↔ g < c.lineWidth ∧ y < c.rows := by
  simp [Screen.inRange]

theorem Screen.cfgOk_iff {c : Screen} : c.cfgOk = true ↔ 1 ≤ c.lineWidth ∧
    (c.binding = .literal → 8 * c.lineWidth ≤ 0x800) ∧ (c.binding = .interleaved → c.lineWidth ≤ 0x800) := by
  unfold Screen.cfgOk
  rw [Bool.and_eq_true, decide_eq_true_eq]
  refine and_congr_right fun _ => ?_
  cases c.binding
  · exact decide_eq_true_iff.trans (by simp [Config.bandLines, Config.bankStride])
  · exact decide_eq_true_iff.trans (by simp [Config.bankStride])

theorem State.screen_banks (s : State) : s.screen.banks = 1 ∨ s.screen.banks = 2 := by
  simp only [State.screen]
  split
  · exact .inr rfl
  · exact .inl rfl

/-- A position lies in the bank of its row, at the row's place inside that bank. -/
theorem Screen.offset_eq (c : Screen) (g y : Nat) :
    c.offset g y = y / c.rowsPerBank * Config.bankSize + c.off1 g (y % c.rowsPerBank) := by
  simp only [Screen.offset]
  rw [Nat.mod_eq_sub, Nat.mul_comm c.rowsPerBank]

/-- In range, forward answers the offset and the address; out of range, those of coordinate (0, 0). -/
theorem Screen.forward_of_inRange {c : Screen} {m : GMode} {x y : Nat} (h : c.inRange (x / m.ppb) y = true) :
    c.forward m x y =
      ⟨true, c.offset (x / m.ppb) y, (c.origin.toNat + c.offset (x / m.ppb) y) % 2 ^ Config.addrBits⟩ := by
  simp [Screen.forward, h]
theorem Screen.forward_of_outside {c : Screen} {m : GMode} {x y : Nat} (h : c.inRange (x / m.ppb) y = false) :
    c.forward m x y = ⟨false, 0, c.origin.toNat⟩ := by
  simp [Screen.forward, h]

/-- The two answers of a translation. -/
theorem State.reportTranslation_ok (s : State) (x y : Nat) :
    s.reportTranslation ⟨true, x, y⟩ = s.setRes (BitVec.ofNat 32 x) (BitVec.ofNat 32 y) := by
  simp [State.reportTranslation]
theorem State.reportTranslation_out (s : State) (x y : Nat) :
    s.reportTranslation ⟨false, x, y⟩ =
      (s.flag .addressOutOfRange 1).setRes (BitVec.ofNat 32 x) (BitVec.ofNat 32 y) := rfl

/-! ### Frame positions -/

theorem State.mem_positions {s : State} {m : GMode} {g y : Nat} :
    (g, y) ∈ s.positions m ↔ g < s.modeWidth m ∧ y < s.height.toNat := by
  simp [State.positions, and_comm]

theorem State.positions_nodup (s : State) (m : GMode) : (s.positions m).Nodup := by
  rw [State.positions, List.nodup_flatMap]
  refine ⟨fun y _ => List.nodup_range.map fun a b h => (Prod.mk.inj h).1, ?_⟩
  refine List.nodup_range.imp fun {a b} hab => ?_
  simp only [Function.onFun, List.disjoint_left, List.mem_map, not_exists, not_and]
  rintro _ ⟨g, _, rfl⟩ g' _ h
  exact hab (Prod.mk.inj h).2.symm

theorem State.length_positions (s : State) (m : GMode) :
    (s.positions m).length = s.height.toNat * s.modeWidth m := by
  simp [State.positions]

/-- The statements' reading of the positions is the meanings' own. -/
theorem State.rasterGroups_eq (s : State) (m : GMode) : s.rasterGroups m = s.positions m := rfl

/-! ### Writes of many elements -/

/-- A read at an index that none of the writes names. -/
theorem Memory.get?_foldl_set_of_ne {w : Nat} {α : Type} (idx : α → Nat) (val : α → BitVec w) {i : Nat} :
    ∀ (ps : List α) (mem : Memory w), (∀ p ∈ ps, idx p ≠ i) →
      Memory.get? (ps.foldl (fun acc p => acc.set (idx p) (val p)) mem) i = mem.get? i
  | [], _, _ => rfl
  | p :: ps, mem, h => by
    rw [List.foldl_cons, Memory.get?_foldl_set_of_ne idx val ps _ fun q hq => h q (by simp [hq]),
      Memory.get?_set_ne _ (h p (by simp))]

/-- A read at an index that one of the writes names, when equal indices are written with equal values. -/
theorem Memory.get?_foldl_set_of_mem {w : Nat} {α : Type} (idx : α → Nat) (val : α → BitVec w) :
    ∀ (ps : List α) (mem : Memory w) (p : α), p ∈ ps → (∀ q ∈ ps, idx q = idx p → val q = val p) →
      Memory.get? (ps.foldl (fun acc p => acc.set (idx p) (val p)) mem) (idx p) = some (val p)
  | q :: ps, mem, p, hp, h => by
    rw [List.foldl_cons]
    by_cases hm : ∃ r ∈ ps, idx r = idx p
    · obtain ⟨r, hr, he⟩ := hm
      rw [← he, Memory.get?_foldl_set_of_mem idx val ps _ r hr fun x hx hxr =>
        (h x (by simp [hx]) (hxr.trans he)).trans (h r (by simp [hr]) he).symm, h r (by simp [hr]) he]
    · have hq : q = p := by
        rcases List.mem_cons.1 hp with rfl | hp
        · rfl
        · exact absurd ⟨p, hp, rfl⟩ hm
      subst hq
      rw [Memory.get?_foldl_set_of_ne idx val ps _ fun r hr he => hm ⟨r, hr, he⟩, Memory.get?_set_self]

/-- Many writes keep the canonical form. -/
theorem Memory.wf_foldl_set {w : Nat} {α : Type} (idx : α → Nat) (val : α → BitVec w) (ps : List α)
    {mem : Memory w} (h : mem.wf = true) :
    Memory.wf (ps.foldl (fun acc p => acc.set (idx p) (val p)) mem) = true := by
  induction ps generalizing mem with
  | nil => exact h
  | cons p ps ih => exact ih (Memory.wf_set h _ _)

/-- Many writes inside a capacity stay inside it. -/
theorem Memory.below_foldl_set {w cap : Nat} {α : Type} (idx : α → Nat) (val : α → BitVec w) (ps : List α)
    {mem : Memory w} (h : mem.Below cap) (hp : ∀ p ∈ ps, idx p < cap) :
    Memory.Below cap (ps.foldl (fun acc p => acc.set (idx p) (val p)) mem) := by
  induction ps generalizing mem with
  | nil => exact h
  | cons p ps ih => exact ih (Memory.below_set h (hp p (by simp)) _) fun q hq => hp q (by simp [hq])

/-! ### Prechecks that pass -/

section
variable {s : State} {m : GMode} {sl : Slot}

theorem State.test2_pass : (s.test2 m).1 = false ↔ 0 < s.colors.toNat ∧ s.colors.toNat ≤ m.ncol := by
  simp only [State.test2, Bool.or_eq_false_iff, decide_eq_false_iff_not]
  omega
theorem State.test3_pass : (s.test3 sl).1 = false ↔
    0 < (s.palLen.get sl).toNat ∧ (s.palLen.get sl).toNat ≤ s.colors.toNat := by
  simp only [State.test3, Bool.or_eq_false_iff, decide_eq_false_iff_not]
  omega
theorem State.test4_pass : (s.test4).1 = false ↔ (s.sprite = false → s.screen.cfgOk = true) := by
  simp only [State.test4]
  cases s.sprite <;> cases s.screen.cfgOk <;> simp
theorem State.test5_pass : (s.test5).1 = false ↔ s.fbLen.a = s.fbLen.b := by simp [State.test5]
theorem State.test6_pass : (s.test6 m).1 = false ↔
    0 < s.width.toNat ∧ 0 < s.height.toNat ∧ s.width.toNat % m.ppb = 0 := by
  simp only [State.test6, Bool.or_eq_false_iff, decide_eq_false_iff_not, bne_eq_false_iff_eq]
  omega
theorem State.test7_pass : (s.test7).1 = false ↔ s.ImageOk := by
  simp only [State.test7, decide_eq_false_iff_not]
  omega
theorem State.test8_pass : (s.test8 m).1 = false ↔
    (s.sprite = true → s.width.toNat / m.ppb * s.height.toNat ≤ Config.fbCap) := by
  have h : s.modeWidth m = s.width.toNat / m.ppb := rfl
  simp only [State.test8, ← h]
  cases s.sprite <;> simp
theorem State.test9_pass : (s.test9 m).1 = false ↔
    (s.sprite = false → s.width.toNat / m.ppb ≤ s.lineWidth.toNat ∧ s.height.toNat ≤ s.screen.rows) := by
  have h : s.screen.lineWidth = s.lineWidth.toNat := rfl
  simp only [State.test9, State.modeWidth, h]
  cases s.sprite <;> simp
theorem State.test10_pass : (s.test10 m sl).1 = false ↔ (s.fbLen.get sl).toNat = s.frameLen m := by
  simp [State.test10]

/-- ENCODE's prechecks pass exactly in the accepted configurations. -/
theorem State.encodeChecks_pass (hm : s.gmode? = some m) :
    firstFailure [s.test2 m, s.test3 sl, s.test4, s.test6 m, s.test7, s.test8 m, s.test9 m] = none ↔
      s.EncodeAccepts m sl := by
  simp only [firstFailure_eq_none, List.forall_mem_cons, State.test2_pass, State.test3_pass, State.test4_pass,
    State.test6_pass, State.test7_pass, State.test8_pass, State.test9_pass]
  simp only [List.not_mem_nil, false_implies, implies_true, and_true]
  tauto

/-- DECODE's prechecks pass exactly in the accepted configurations. -/
theorem State.decodeChecks_pass (hm : s.gmode? = some m) :
    firstFailure [s.test2 m, s.test3 sl, s.test4, s.test6 m, s.test7, s.test8 m, s.test9 m, s.test10 m sl] = none ↔
      s.DecodeAccepts m sl := by
  simp only [firstFailure_eq_none, List.forall_mem_cons, State.test2_pass, State.test3_pass, State.test4_pass,
    State.test6_pass, State.test7_pass, State.test8_pass, State.test9_pass, State.test10_pass]
  simp only [List.not_mem_nil, false_implies, implies_true, and_true]
  tauto

/-- DIFF's prechecks pass exactly in the accepted configurations. -/
theorem State.diffChecks_pass (hm : s.gmode? = some m) :
    firstFailure [s.test4, s.test5, s.test6 m, s.test8 m, s.test9 m, s.test10 m .a] = none ↔ s.DiffAccepts m := by
  simp only [firstFailure_eq_none, List.forall_mem_cons, State.test4_pass, State.test5_pass, State.test6_pass,
    State.test8_pass, State.test9_pass, State.test10_pass, PerSlot.get_a]
  simp only [List.not_mem_nil, false_implies, implies_true, and_true]
  tauto

/-- DIFFI's prechecks pass exactly in the accepted configurations. -/
theorem State.diffiChecks_pass (hm : s.gmode? = some m) :
    firstFailure [s.test2 m, s.test3 .a, s.test3 .b, s.test4, s.test6 m, s.test7, s.test8 m, s.test9 m] = none ↔
      s.DiffiAccepts m := by
  simp only [firstFailure_eq_none, List.forall_mem_cons, State.test2_pass, State.test3_pass, State.test4_pass,
    State.test6_pass, State.test7_pass, State.test8_pass, State.test9_pass]
  simp only [List.not_mem_nil, false_implies, implies_true, and_true]
  tauto

/-- TANALYZE's prechecks pass exactly in the accepted configurations. -/
theorem State.analyzeChecks_pass (hm : s.gmode? = some m) :
    firstFailure (s.analyzeChecks m sl) = none ↔ s.AnalyzeAccepts m sl := by
  simp only [State.analyzeChecks, firstFailure_eq_none, List.forall_mem_cons, Bool.or_eq_false_iff,
    decide_eq_false_iff_not, bne_eq_false_iff_eq, Nat.not_lt]
  simp only [List.not_mem_nil, false_implies, implies_true, and_true, State.modeWidth]
  constructor
  · rintro ⟨⟨⟨h1, h2⟩, h3⟩, ⟨⟨h4, h5⟩, h6⟩, ⟨h7, h8⟩, h9, h10, h11⟩
    exact ⟨hm, by omega, by omega, h3, by omega, by omega, h6, h7, h8, h9, h10, h11⟩
  · rintro ⟨_, h1, h2, h3, h4, h5, h6, h7, h8, h9, h10, h11⟩
    exact ⟨⟨⟨by omega, by omega⟩, h3⟩, ⟨⟨by omega, by omega⟩, h6⟩, ⟨h7, h8⟩, h9, h10, h11⟩

/-- The prechecks that TLOOKUP and TMAP share pass exactly on a frame that fits a valid table. -/
theorem State.catalogueChecks_pass : firstFailure (s.catalogueChecks sl) = none ↔ s.CatalogueAccepts sl := by
  simp only [State.catalogueChecks, firstFailure_eq_none, List.forall_mem_cons, TileTable.cells,
    bne_eq_false_iff_eq, Bool.not_eq_false']
  simp

end

/-! ### The delta table -/

/-- One accumulated change adds one address. -/
theorem dtTotal_dtAdd (b : Byte) (t : Addr16) (dt : List DtItem) : dtTotal (dtAdd b t dt) = dtTotal dt + 1 := by
  induction dt with
  | nil => rfl
  | cons it rest ih =>
    simp only [dtTotal] at ih ⊢
    unfold dtAdd
    split
    · simp; omega
    · simp only [List.map_cons, List.sum_cons, ih]
      omega

/-- The byte values after an accumulated change. -/
theorem bytes_dtAdd (b : Byte) (t : Addr16) (dt : List DtItem) :
    (dtAdd b t dt).map DtItem.byte =
      if b ∈ dt.map DtItem.byte then dt.map DtItem.byte else dt.map DtItem.byte ++ [b] := by
  induction dt with
  | nil => rfl
  | cons it rest ih =>
    unfold dtAdd
    by_cases hb : it.byte = b
    · simp [hb]
    · rw [if_neg hb, List.map_cons, ih]
      simp only [List.map_cons, List.mem_cons, Ne.symm hb, false_or]
      split <;> rfl

/-! ### The tile table -/

/-- Counting an occurrence changes no content. -/
theorem contents_bumpTile (t : List Byte) (es : List TileEntry) :
    (bumpTile t es).map TileEntry.content = es.map TileEntry.content := by
  induction es with
  | nil => rfl
  | cons e es ih =>
    unfold bumpTile
    split
    · rfl
    · simp [ih]

/-- Registering a cell's tile counts it, appends it, or drops it when the table is full. -/
theorem registerTile_cases (acc : List TileEntry × Nat) (t : List Byte) :
    (t ∈ acc.1.map TileEntry.content ∧ registerTile acc t = (bumpTile t acc.1, acc.2)) ∨
    (t ∉ acc.1.map TileEntry.content ∧ acc.1.length < Config.tileCap ∧
      registerTile acc t = (acc.1 ++ [{ content := t, count := 1 }], acc.2)) ∨
    (t ∉ acc.1.map TileEntry.content ∧ Config.tileCap ≤ acc.1.length ∧ registerTile acc t = (acc.1, acc.2 + 1)) := by
  have hf : (tileIndex t acc.1).isSome = true ↔ t ∈ acc.1.map TileEntry.content := by
    rw [← not_iff_not, Bool.not_eq_true, Option.isSome_eq_false_iff, Option.isNone_iff_eq_none, tileIndex_eq_none]
    simp
  unfold registerTile
  by_cases h : t ∈ acc.1.map TileEntry.content
  · exact .inl ⟨h, by rw [if_pos (hf.2 h)]⟩
  · rw [if_neg (mt hf.1 h)]
    by_cases hl : acc.1.length < Config.tileCap
    · exact .inr (.inl ⟨h, hl, by rw [if_pos hl]⟩)
    · exact .inr (.inr ⟨h, by omega, by rw [if_neg hl]⟩)

/-- Merging into one survivor: it keeps its content, and those it leaves are the entries that are far from it. -/
theorem absorb_eq (m : GMode) (thr : Nat) (e : TileEntry) (es : List TileEntry) :
    (absorb m thr e es).1.content = e.content ∧
    (absorb m thr e es).2 = es.filter fun x => decide (thr ≤ tileDist m e.content x.content) := by
  induction es generalizing e with
  | nil => exact ⟨rfl, rfl⟩
  | cons x xs ih =>
    unfold absorb
    by_cases h : tileDist m e.content x.content < thr
    · rw [if_pos h, List.filter_cons_of_neg (by simpa using h)]
      exact ih { e with count := e.count + x.count }
    · rw [if_neg h, List.filter_cons_of_pos (by simpa using h)]
      exact ⟨(ih e).1, congrArg (x :: ·) (ih e).2⟩

/-- The counts of the entries merged into a survivor are added to its own. -/
theorem absorb_count (m : GMode) (thr : Nat) (e : TileEntry) (es : List TileEntry) :
    (absorb m thr e es).1.count = e.count +
      ((es.filter fun x => decide (tileDist m e.content x.content < thr)).map TileEntry.count).sum := by
  induction es generalizing e with
  | nil => simp [absorb]
  | cons x xs ih =>
    unfold absorb
    by_cases h : tileDist m e.content x.content < thr
    · rw [if_pos h, List.filter_cons_of_pos (by simpa using h), ih]
      simp [BitVec.add_assoc]
    · rw [if_neg h, List.filter_cons_of_neg (by simpa using h)]
      exact ih e

/-- Sorting reorders the entries by non-increasing count. -/
theorem sortTiles_perm (es : List TileEntry) : (sortTiles es).Perm es := List.perm_insertionSort _ es

end Sys2Proof.Machine
end

