-- ==== Sys2Proof/Laws/PerInstr.lean ====
section
/-! SUPPORT. Statements about every instruction, one lemma per constructor. -/

namespace Sys2Proof.Laws.EncodeMatchesRow

/-- `match` of a command's row in the opcode table, as spec/opcode_table.json lists it. -/
def rowMatch : Instr → Word
  | .nop => 0x00000000
  | .sreset => 0x01000000
  | .plookup _ => 0x10000000
  | .pack => 0x20000000
  | .unpack => 0x21000000
  | .safwd => 0x30000000
  | .sainv => 0x31000000
  | .encodeFrame _ => 0x40000000
  | .decodeFrame _ => 0x41000000
  | .dclr => 0x50000000
  | .dadd _ _ => 0x51000000
  | .diff => 0x52000000
  | .diffi => 0x53000000
  | .marshal => 0x54000000
  | .unmarshal => 0x55000000
  | .tclr => 0x60000000
  | .tanalyze _ => 0x61000000
  | .treduce _ => 0x62000000
  | .tsort => 0x63000000
  | .tlookup _ => 0x64000000
  | .tmap _ => 0x65000000

/-- `mask` of a command's row in the opcode table, as spec/opcode_table.json lists it. -/
def rowMask : Instr → Word
  | .plookup _ | .encodeFrame _ | .decodeFrame _ | .tanalyze _ | .tlookup _ | .tmap _ => 0xFFFFFFFE
  | .dadd _ _ => 0xFF000000
  | .treduce _ => 0xFFFF0000
  | .nop | .sreset | .pack | .unpack | .safwd | .sainv | .dclr | .diff | .diffi | .marshal | .unmarshal
  | .tclr | .tsort => 0xFFFFFFFF

/-- The word of a command selects its row: w & mask = match (30_encoding.md R113). -/
def Statement (i : Instr) : Prop := encode i &&& rowMask i = rowMatch i

theorem nop : Statement .nop := rfl
theorem sreset : Statement .sreset := rfl
theorem plookup (sl : Slot) : Statement (.plookup sl) := by cases sl <;> rfl
theorem pack : Statement .pack := rfl
theorem unpack : Statement .unpack := rfl
theorem safwd : Statement .safwd := rfl
theorem sainv : Statement .sainv := rfl
theorem encodeFrame (sl : Slot) : Statement (.encodeFrame sl) := by cases sl <;> rfl
theorem decodeFrame (sl : Slot) : Statement (.decodeFrame sl) := by cases sl <;> rfl
theorem dclr : Statement .dclr := rfl
theorem dadd (val8 : Byte) (addr16 : Addr16) : Statement (.dadd val8 addr16) := by
  unfold Statement
  change (0x51#8 ++ (val8 ++ addr16) : BitVec 32) &&& 0xFF000000#32 = 0x51000000#32
  ext k hk
  simp only [BitVec.getElem_and, BitVec.getElem_append]
  interval_cases k <;> simp
theorem diff : Statement .diff := rfl
theorem diffi : Statement .diffi := rfl
theorem marshal : Statement .marshal := rfl
theorem unmarshal : Statement .unmarshal := rfl
theorem tclr : Statement .tclr := rfl
theorem tanalyze (sl : Slot) : Statement (.tanalyze sl) := by cases sl <;> rfl
theorem treduce (imm16 : BitVec 16) : Statement (.treduce imm16) := by
  unfold Statement
  change (0x62#8 ++ (0#8 ++ imm16) : BitVec 32) &&& 0xFFFF0000#32 = 0x62000000#32
  ext k hk
  simp only [BitVec.getElem_and, BitVec.getElem_append]
  interval_cases k <;> simp
theorem tsort : Statement .tsort := rfl
theorem tlookup (sl : Slot) : Statement (.tlookup sl) := by cases sl <;> rfl
theorem tmap (sl : Slot) : Statement (.tmap sl) := by cases sl <;> rfl

end Sys2Proof.Laws.EncodeMatchesRow
end

