-- ==== Sys2Proof/Tests/Slice0.lean ====
section
/-! SUPPORT. Tests of the model. Expected values come from the spec's encoding tables, from the examples in its
command rules and from 95_test_vectors.md, or are worked by hand from a rule; each test names its source. The
theorems named `witness_…` meet the hypotheses of a statement of Certificates/Slice0/Obligations.lean. -/

namespace Sys2Proof.Tests

open Sys2Proof Sys2Proof.Machine

/-! ### Decoding: words written out bit by bit from 30_encoding.md R111 and R113 -/

theorem test_decode_nop : decode 0b00000000_000000000000000000000000#32 = .ok .nop := by decide
theorem test_decode_sreset : decode 0b00000001_000000000000000000000000#32 = .ok .sreset := by decide
theorem test_decode_plookup : decode 0b00010000_00000000000000000000000_1#32 = .ok (.plookup .b) := by decide
theorem test_decode_pack : decode 0b00100000_000000000000000000000000#32 = .ok .pack := by decide
theorem test_decode_unpack : decode 0b00100001_000000000000000000000000#32 = .ok .unpack := by decide
theorem test_decode_safwd : decode 0b00110000_000000000000000000000000#32 = .ok .safwd := by decide
theorem test_decode_sainv : decode 0b00110001_000000000000000000000000#32 = .ok .sainv := by decide
theorem test_decode_encode : decode 0b01000000_00000000000000000000000_1#32 = .ok (.encodeFrame .b) := by decide
theorem test_decode_decode : decode 0b01000001_00000000000000000000000_0#32 = .ok (.decodeFrame .a) := by decide
theorem test_decode_dclr : decode 0b01010000_000000000000000000000000#32 = .ok .dclr := by decide
/-- The example of R117: DADD 0x3F, 0xC050. -/
theorem test_decode_dadd :
    decode 0b01010001_00111111_1100000001010000#32 = .ok (.dadd 0x3F 0xC050) := by decide
theorem test_decode_diff : decode 0b01010010_000000000000000000000000#32 = .ok .diff := by decide
theorem test_decode_diffi : decode 0b01010011_000000000000000000000000#32 = .ok .diffi := by decide
theorem test_decode_marshal : decode 0b01010100_000000000000000000000000#32 = .ok .marshal := by decide
theorem test_decode_unmarshal : decode 0b01010101_000000000000000000000000#32 = .ok .unmarshal := by decide
theorem test_decode_tclr : decode 0b01100000_000000000000000000000000#32 = .ok .tclr := by decide
theorem test_decode_tanalyze : decode 0b01100001_00000000000000000000000_0#32 = .ok (.tanalyze .a) := by decide
/-- The example of R117: TREDUCE 3. -/
theorem test_decode_treduce : decode 0b01100010_00000000_0000000000000011#32 = .ok (.treduce 3) := by decide
theorem test_decode_tsort : decode 0b01100011_000000000000000000000000#32 = .ok .tsort := by decide
theorem test_decode_tlookup : decode 0b01100100_00000000000000000000000_1#32 = .ok (.tlookup .b) := by decide
theorem test_decode_tmap : decode 0b01100101_00000000000000000000000_0#32 = .ok (.tmap .a) := by decide
/-- Must-be-zero bits at the edges of formats N, S and I (R114). -/
theorem test_decode_zero_bits :
    [0x00000001#32, 0x00800000#32, 0x40000002#32, 0x40800000#32, 0x62010000#32, 0x62800000#32].all
      (fun w => decode w = .error .mustBeZeroBitSet) = true := by decide
/-- Both ends of every opcode range that R115 lists. -/
theorem test_decode_unassigned :
    [0x02#8, 0x0F#8, 0x11#8, 0x1F#8, 0x22#8, 0x2F#8, 0x32#8, 0x3F#8, 0x42#8, 0x4F#8, 0x56#8, 0x5F#8, 0x66#8,
      0xFF#8].all (fun op => decode (op ++ 0#24) = .error .unassignedOpcode) = true := by decide
/-- The host's entry point, on a word of the opcode table and on a word outside it. -/
theorem test_decode_table_word : decodeTableWord 32 0x64000001 = some (.tlookup .b) ∧
    decodeTableWord 32 0x64000002 = none := by decide

/-! ### Well-formedness: each check refuses an ill-formed line -/

theorem test_wf_n_takes_nothing : (AsmLine.mk .DIFF [.num 0]).wellFormed = false := by decide
theorem test_wf_s_takes_a_slot : (AsmLine.mk .ENCODE [.num 0]).wellFormed = false := by decide
theorem test_wf_s_takes_one_slot : (AsmLine.mk .TMAP []).wellFormed = false := by decide
theorem test_wf_i_takes_a_number : (AsmLine.mk .TREDUCE []).wellFormed = false := by decide
theorem test_wf_i_width : (AsmLine.mk .TREDUCE [.num 0x10000]).wellFormed = false := by decide
theorem test_wf_b_takes_two_numbers : (AsmLine.mk .DADD [.num 1]).wellFormed = false := by decide
theorem test_wf_b_byte_width : (AsmLine.mk .DADD [.num 0x100, .num 0]).wellFormed = false := by decide
theorem test_wf_b_address_width : (AsmLine.mk .DADD [.num 0, .num 0x10000]).wellFormed = false := by decide
theorem test_wf_wr_width : (ScriptLine.wr .MODE (2 ^ 32)).wellFormed = false := by decide
theorem test_wf_wm_index : (ScriptLine.wm (.pal .a) 16 0).wellFormed = false := by decide
theorem test_wf_wm_width : (ScriptLine.wm (.pal .a) 0 (2 ^ 32)).wellFormed = false := by decide
theorem test_wf_rm_index : (ScriptLine.rm .out 0x10400).wellFormed = false := by decide
theorem test_wf_clrf_width : (ScriptLine.clrf (2 ^ 32)).wellFormed = false := by decide
theorem test_wf_cmd : (ScriptLine.cmd (AsmLine.mk .NOP [.slot .a])).wellFormed = false := by decide
/-- The examples of R117 assemble to their words. -/
theorem test_assemble : (AsmLine.mk .DADD [.num 0x3F, .num 0xC050]).assemble = some (.dadd 0x3F 0xC050) ∧
    (AsmLine.mk .ENCODE [.slot .b]).assemble = some (.encodeFrame .b) ∧
    ScriptLine.toHostOp (.clrf 1) = some (.write 0x00003 1) := by decide

/-! ### Helpers -/

/-- The state an outcome carries; a state no test expects where there is none. -/
def stateOf (o : Host.Outcome State Fault Refusal) : State :=
  match o with
  | .next t => t
  | .fault _ | .refused _ => { State.reset with err := 0xDEAD }

/-- The state after one command. -/
def after (i : Instr) (s : State) : State := stateOf (exec i s)

/-- Elements 0, 1, … of a memory. -/
def mem {w : Nat} (vs : List (BitVec w)) : Memory w := Memory.run 0 vs

/-- The palette of 40_palette_index.md R141. -/
def inks : List Word := [0xFF000000, 0xFF0000FF, 0xFF00FF00, 0xFFFF0000]

/-- The sprite configuration of 43_frame_codec.md R194's example, with its palette and image in both slots. -/
def codec : State :=
  { State.reset with
    mode := 1, width := 8, height := 2, ctrl := 1, colors := 4, palLen := ⟨4, 4⟩
    pal := ⟨mem inks, mem inks⟩
    img := let im := mem ([0, 1, 2, 3, 3, 2, 1, 0, 0, 0, 0, 0, 1, 1, 1, 1].map fun i => inks.getD i 0)
           ⟨im, im⟩ }

/-- The same with the frames of 44_delta_engine.md R218's example. -/
def frames : State :=
  { codec with
    fbLen := ⟨4, 4⟩, fb := ⟨mem [0x53, 0xAC, 0x00, 0xF0], mem [0x53, 0xFF, 0x00, 0xFF]⟩ }

/-- The delta table of 44_delta_engine.md R223's example. -/
def deltas : State :=
  { State.reset with dt := [⟨0x3F, 2, [0xC050, 0xC051]⟩, ⟨0x00, 1, [0x0010]⟩] }

/-- The stream of that table, and its length. -/
def stream : State :=
  { State.reset with
    out := mem [0x02, 0x00, 0x3F, 0x02, 0x50, 0xC0, 0x51, 0xC0, 0x00, 0x01, 0x10, 0x00], outLen := 12 }

/-- The 8 by 8 frame in mode 0 of 45_tile_board.md R243's example: cell 5 differs from the other fifteen. -/
def board : State :=
  { State.reset with
    width := 8, height := 8, tileW := 2, tileH := 2, fbLen := ⟨32, 0⟩
    fb := ⟨mem ((List.range 32).map fun i => if i = 9 then 0xC0 else if i = 13 then 0x0C else 0), []⟩ }

/-- The table TANALYZE makes of it. -/
def analysed : State :=
  { board with
    tb := { mode := .m0, tw := 2, th := 2, cols := 4, rows := 4, tbytes := 2, valid := true, sorted := false
            ovf := false, entries := [⟨[0x00, 0x00], 15⟩, ⟨[0xC0, 0x0C], 1⟩] } }

/-- A state for the address translator, from the common setup of 95_test_vectors.md section 2.3. -/
def screen80 : State := { State.reset with mode := 1, lineWidth := 80, origin := 0xC000 }

/-! ### One step of each command -/

/-- R270's example: ERR clears and nothing else changes. -/
theorem test_nop : after .nop { codec with err := 4, flags := 8 } = { codec with err := 0, flags := 8 } := by decide
/-- R271's example: WIDTH and FLAGS are 0, the palette stays. -/
theorem test_sreset : (after .sreset { codec with flags := 8 }).width = 0 ∧
    (after .sreset { codec with flags := 8 }).flags = 0 ∧
    (after .sreset { codec with flags := 8 }).pal = codec.pal := by decide
/-- V-PI-1. -/
theorem test_plookup_hit : (after (.plookup .a) { codec with arg0 := 0xFF00FF00 }).res0 = 2 := by decide
/-- V-PI-2: only alpha differs. -/
theorem test_plookup_miss :
    let t := after (.plookup .a) { codec with arg0 := 0x7F00FF00 }
    t.res0 = 0 ∧ t.res1 = 1 ∧ t.err = 0x00010000 ∧ t.flags = 1 ∧ t.nfCnt = 1 := by decide
/-- V-PK-51: mode 1, pixels 0, 1, 2, 3, unused nibbles ignored. -/
theorem test_pack : (after .pack { codec with arg0 := 0xFFFF3210 }).res0 = 0x53 := by decide
/-- V-PK-50. -/
theorem test_pack_out_of_range :
    let t := after .pack { codec with arg0 := 4 }
    t.err = 6 ∧ t.errCmd = 0x20000000 ∧ t.flags = 0x020 := by decide
/-- V-PK-34: mode 0. -/
theorem test_unpack_mode0 : (after .unpack { State.reset with arg0 := 0x1B }).res0 = 0xCA := by decide
/-- V-PK-44: mode 2. -/
theorem test_unpack_mode2 :
    (after .unpack { State.reset with mode := 2, arg0 := 0xA5 }).res0 = 0x10100101 := by decide
/-- V-SA-2 and V-SA-22: one row down, in each binding. -/
theorem test_safwd :
    let s := { screen80 with arg0 := 4, arg1 := 1 }
    (after .safwd s).res0 = 0x0051 ∧ (after .safwd s).res1 = 0xC051 ∧
    (after .safwd { s with binding := .interleaved }).res0 = 0x0801 := by decide
/-- V-SA-10: the first row of the second bank. -/
theorem test_safwd_bank :
    let t := after .safwd { screen80 with ctrl := 2, arg1 := 64 }
    t.res0 = 0x4000 ∧ t.res1 = 0x0000 ∧ t.err = 0 := by decide
/-- R179's example: 0xC051. -/
theorem test_sainv :
    let t := after .sainv { screen80 with arg0 := 0xC051 }
    t.res0 = 4 ∧ t.res1 = 1 ∧ t.err = 0 := by decide
/-- R179's example: 0xC280 lies in a gap. -/
theorem test_sainv_gap :
    let t := after .sainv { screen80 with arg0 := 0xC280 }
    t.res0 = 0 ∧ t.res1 = 0 ∧ t.err = 0x00020000 ∧ t.aoorCnt = 1 := by decide
/-- R194's example, V-FC-1. -/
theorem test_encode :
    let t := after (.encodeFrame .a) codec
    t.fb.a = mem [0x53, 0xAC, 0x00, 0xF0] ∧ t.fbLen.a = 4 ∧ t.err = 0 := by decide
/-- R190 test 6: a width that is no multiple of the group. -/
theorem test_encode_rejects : (after (.encodeFrame .a) { codec with width := 6 }).err = 5 := by decide
/-- R195's example: the image comes back. -/
theorem test_decode :
    let t := after (.decodeFrame .a) { frames with img := ⟨[], []⟩ }
    t.img.a = codec.img.a ∧ t.err = 0 := by decide
/-- R195: an index beyond PALLEN takes entry 0, once for each of the four pixels with index 2 or 3. -/
theorem test_decode_miss :
    let t := after (.decodeFrame .a) { frames with palLen := ⟨2, 4⟩ }
    t.nfCnt = 4 ∧ t.imgAt .a 2 = 0xFF000000 := by decide
/-- R215's example. -/
theorem test_dclr : (after .dclr deltas).dt = [] := by decide
/-- R216: a byte value the table has joins its item, a new one is appended. -/
theorem test_dadd :
    (after (.dadd 0x3F 0x0001) deltas).dt = [⟨0x3F, 3, [0xC050, 0xC051, 0x0001]⟩, ⟨0x00, 1, [0x0010]⟩] ∧
    (after (.dadd 0x40 0x0001) deltas).dt =
      [⟨0x3F, 2, [0xC050, 0xC051]⟩, ⟨0x00, 1, [0x0010]⟩, ⟨0x40, 1, [0x0001]⟩] := by decide
/-- R218's example. -/
theorem test_diff : (after .diff frames).dt = [⟨0xFF, 2, [0x0001, 0x0003]⟩] := by decide
/-- R221 (a): frames of unequal length. -/
theorem test_diff_size :
    (after .diff { frames with fbLen := ⟨4, 8⟩ }).err = 4 ∧
    (after .diff { frames with fbLen := ⟨4, 8⟩ }).dt = frames.dt := by decide
/-- R219: the same pixels through two palettes; by hand, slot B's palette swaps colours 0 and 1, so its rows
pack to 93 9C F0 00. -/
theorem test_diffi :
    (after .diffi { codec with
      pal := ⟨mem inks, mem [0xFF0000FF, 0xFF000000, 0xFF00FF00, 0xFFFF0000]⟩ }).dt =
      [⟨0x93, 1, [0x0000]⟩, ⟨0x9C, 1, [0x0001]⟩, ⟨0xF0, 1, [0x0002]⟩, ⟨0x00, 1, [0x0003]⟩] := by decide
/-- R223's example. -/
theorem test_marshal :
    (after .marshal deltas).out = stream.out ∧ (after .marshal deltas).outLen = 12 := by decide
/-- R224's example. -/
theorem test_unmarshal : (after .unmarshal stream).dt = deltas.dt := by decide
/-- R224's example: a stream that is cut off. -/
theorem test_unmarshal_bad :
    (after .unmarshal { stream with outLen := 11 }).err = 9 ∧
    (after .unmarshal { stream with outLen := 11, dt := deltas.dt }).dt = deltas.dt := by decide
/-- R242's example. -/
theorem test_tclr : (after .tclr analysed).tb = TileTable.empty := by decide
/-- R243's example. -/
theorem test_tanalyze :
    (after (.tanalyze .a) board).tb = analysed.tb ∧
    (after (.tanalyze .a) board).readReg .TB_INFO = 0x00020100 := by decide
/-- R246's example: dist = 4, so 4 merges nothing and 5 merges. -/
theorem test_treduce :
    (after (.treduce 4) analysed).tb = analysed.tb ∧
    (after (.treduce 5) analysed).tb.entries = [⟨[0x00, 0x00], 16⟩] := by decide
/-- R247's example. -/
theorem test_tsort :
    let e (c : Byte) (n : BitVec 16) : TileEntry := ⟨[c], n⟩
    (after .tsort { analysed with tb := { analysed.tb with entries := [e 1 1, e 2 3, e 3 1, e 4 3] } }).tb.entries =
      [e 2 3, e 4 3, e 1 1, e 3 1] := by decide
/-- R248's example: cell 5, and a cell beyond the grid. -/
theorem test_tlookup :
    (after (.tlookup .a) { analysed with arg0 := 5 }).res0 = 1 ∧
    (after (.tlookup .a) { analysed with arg0 := 16 }).err = 5 := by decide
/-- R249's example. -/
theorem test_tmap :
    (after (.tmap .a) analysed).map = mem ((List.range 16).map fun n => if n = 5 then 1 else 0) ∧
    (after (.tmap .a) analysed).mapLen = 16 := by decide
/-- R115: a word of no command. -/
theorem test_illegal : stateOf (hostWrite 0x00000 0x40000002 State.reset) =
    { State.reset with err := 7, errCmd := 0x40000002, flags := 0x040 } := by decide
/-- R60, R43: what a read returns right after reset. -/
theorem test_reset_reads : (stateOf (hostRead 0x00028 State.reset)).busData = some 0x4D505031 ∧
    (stateOf (hostRead 0x0000B State.reset)).busData = some 0 := by decide
/-- The first instruction after reset, placed by the host of the checks. -/
theorem test_step_runs_placed_word :
    (stateOf (step (State.reset.withFetchWord 32 0x513FC050))).dt = [⟨0x3F, 1, [0xC050]⟩] := by decide

/-! ### Witnesses: states and operands that meet the hypotheses of each statement, clause by clause -/

theorem witness_DecodeAndEncodeAgree : decode 0x64000001 = .ok (.tlookup .b) := by decide
theorem witness_IllegalWordReports : (∀ i : Instr, encode i ≠ 0xFF000000) ∧
    (Mnemonic.opcode .ENCODE = (0x40000002#32).extractLsb' 24 8 ∧
      (0x40000002#32).extractLsb' 0 24 &&& (Mnemonic.format .ENCODE).zeroBits ≠ 0) ∧
    ((0x66FFFFFF#32).extractLsb' 24 8).toNat = 0x66 := by
  refine ⟨fun i h => ?_, by decide, by decide⟩
  have h' := congrArg (BitVec.extractLsb' 24 8) h
  rw [encode, BitVec.extractLsb'_append_eq_left] at h'
  revert h'
  cases i.mnemonic <;> decide
theorem witness_StepRunsDecodedCommand :
    let s := { frames with pending := [.write 0x00000 0x52000000, .read 0x0001C] }
    s.inReset = false ∧ s.pending = .write 0x00000 0x52000000 :: [.read 0x0001C] ∧
    decode 0x52000000 = .ok .diff ∧ frames.pending = [] := by decide
/-- The ends of every reserved range, and their neighbours; the last element of a window and the last byte of a TILE
entry. -/
theorem witness_BusAccessesAnswer : State.reset.inReset = false ∧
    [0x2B, 0x3F, 0x60, 0x7FFF, 0x30400, 0x3FFFF, 0x5FE00, 0x7FFFF].all (fun wa => locate wa = .reserved) = true ∧
    [0x2A, 0x40, 0x5F, 0x8000, 0x303FF, 0x40000, 0x5FDFF, 0x80000, 0xFFFFF].all
      (fun wa => locate wa ≠ .reserved) = true ∧
    0x1FDFF < Window.tile.size ∧ 0x1FDFF = 512 * 254 + 511 ∧ 511 < 512 := by decide
/-- The last element of every window. -/
theorem witness_AddressMapPlaces :
    windowTable.all (fun m => m.size - 1 < m.size ∧ locate (windowBase m + (m.size - 1)) = .elem m (m.size - 1)) =
      true := by decide
theorem witness_ElementWriteThenRead : Window.fb .b ≠ .tile ∧ 0x7FFF < (Window.fb .b).size ∧
    (Window.fb .a, 0x7FFF) ≠ (Window.fb .b, 0x7FFF) := by decide
theorem witness_ReadOnlyWritesAreIgnored : Reg.PARAMS1 ∈ [Reg.ERR, .PARAMS1] ∧ 130559 < 255 * 512 := by decide
theorem witness_RegisterStoresItsField : rwWidth .OUTLEN = some 17 ∧ rwWidth (.PALLEN .b) = some 5 := by decide
theorem witness_TableReadOut_delta : DeltaTableOk deltas.dt ∧
    deltas.dt[deltas.dtSel.toNat]? = some ⟨0x3F, 2, [0xC050, 0xC051]⟩ ∧
    [0xC050#16, 0xC051][({ deltas with dtASel := 1 }).dtASel.toNat]? = some 0xC051 ∧
    (2#16).toNat ≤ ({ deltas with dtASel := 2 }).dtASel.toNat ∧
    deltas.dt.length ≤ ({ deltas with dtSel := 2 }).dtSel.toNat := by decide
theorem witness_TableReadOut_tile : TileTableOk analysed.tb ∧
    analysed.tb.entries[({ analysed with tbSel := 1 }).tbSel.toNat]? = some ⟨[0xC0, 0x0C], 1⟩ ∧
    analysed.tb.entries.length ≤ ({ analysed with tbSel := 2 }).tbSel.toNat ∧ 1 < analysed.tb.tbytes.toNat := by
  decide
theorem witness_ResetTable : Reg.FLAGS ≠ .ID ∧ Reg.FLAGS ≠ .PARAMS0 ∧ Reg.FLAGS ≠ .PARAMS1 := by decide
theorem witness_HardwareReset : ({ codec with inReset := true }).inReset = true := by decide
theorem witness_FatalErrorChangesOnlyTheReport :
    let s := { frames with fbLen := ⟨4, 8⟩ }
    exec .diff s = .next (after .diff s) ∧ (after .diff s).errCode ≠ 0 := ⟨rfl, by decide⟩
/-- Each of the three event bits clear and set. -/
theorem witness_CompletionReport_bits :
    let nf := after (.plookup .a) { codec with arg0 := 1 }
    let aoor := after .safwd { screen80 with arg1 := 64 }
    let capx := after .tsort { analysed with tb := { analysed.tb with ovf := true } }
    (nf.errCode = 0 ∧ nf.err.getLsbD 16 = true ∧ nf.err.getLsbD 17 = false) ∧
    (aoor.errCode = 0 ∧ aoor.err.getLsbD 17 = true ∧ aoor.err.getLsbD 18 = false) ∧
    (capx.errCode = 0 ∧ capx.err.getLsbD 18 = true ∧ capx.err.getLsbD 16 = false) := by decide
theorem witness_CompletionReport : exec .nop codec = .next (after .nop codec) ∧ (after .nop codec).errCode = 0 ∧
    Instr.nop ≠ .sreset := ⟨rfl, by decide, by decide⟩
theorem witness_CommandsKeepConfiguration :
    exec (.encodeFrame .a) codec = .next (after (.encodeFrame .a) codec) ∧ Instr.encodeFrame .a ≠ .sreset :=
  ⟨rfl, by decide⟩
/-- TMAP is none of the commands that the other stores exclude, ENCODE none of those that MAP's clause excludes. -/
theorem witness_EachStoreHasItsWriters : exec (.tmap .a) analysed = .next (after (.tmap .a) analysed) ∧
    (∀ sl, Instr.tmap .a ≠ .decodeFrame sl ∧ Instr.tmap .a ≠ .encodeFrame sl ∧ Instr.encodeFrame .a ≠ .tmap sl) ∧
    Instr.tmap .a ≠ .marshal ∧ Instr.tmap .a ≠ .sreset ∧
    (Instr.tmap .a).mnemonic ∉ [Mnemonic.SRESET, .DCLR, .DADD, .DIFF, .DIFFI, .UNMARSHAL] ∧
    (Instr.tmap .a).mnemonic ∉ [Mnemonic.SRESET, .TCLR, .TANALYZE, .TREDUCE, .TSORT] ∧
    (Instr.tmap .a).mnemonic ∉ [Mnemonic.SRESET, .PLOOKUP, .PACK, .UNPACK, .SAFWD, .SAINV, .TLOOKUP] :=
  ⟨rfl, fun sl => by cases sl <;> decide, by decide, by decide, by decide, by decide, by decide⟩
/-- Palette lengths 17 and 16, a colour that occurs twice, and an empty palette. -/
theorem witness_PlookupFindsLowestPosition :
    16 < (({ codec with palLen := ⟨17, 4⟩ }).palLen.get .a).toNat ∧
    (let s := { codec with palLen := ⟨16, 4⟩, pal := ⟨mem (inks ++ inks), []⟩, arg0 := 0xFF00FF00 }
     (s.palLen.get .a).toNat ≤ 16 ∧ 2 < (s.palLen.get .a).toNat ∧ s.palAt .a 2 = s.arg0 ∧
     ∀ j < 2, s.palAt .a j ≠ s.arg0) ∧
    (let s := { codec with palLen := ⟨0, 4⟩ }
     (s.palLen.get .a).toNat ≤ 16 ∧ ∀ i < (s.palLen.get .a).toNat, s.palAt .a i ≠ s.arg0) := by decide
/-- Each value of MODE; the last pixel and the last index bit of each mode. -/
theorem witness_PackedBitPositions :
    (State.reset.mode = 0 ∧ codec.mode = 1 ∧ ({ codec with mode := 2 }).mode = 2 ∧ ({ codec with mode := 3 }).mode = 3) ∧
    (1 < GMode.m0.ppb ∧ 3 < GMode.m0.bpp) ∧
    (3 < GMode.m1.ppb ∧ 1 < GMode.m1.bpp) ∧ (7 < GMode.m2.ppb ∧ 0 < GMode.m2.bpp) := by decide
/-- The reading of mode 2 that decision D10 sets aside, pixel 0 in bit 0, as a table that differs by mode. -/
def rightToLeft : PosTable
  | .m2, k, _ => k
  | m, k, j => Config.pos m k j
theorem witness_PackUnpackBijection : rightToLeft.Bijective ∧ [15, 0].length = GMode.m0.ppb ∧
    ∀ v ∈ [15, 0], v < 2 ^ GMode.m0.bpp :=
  ⟨fun m => by cases m <;> decide, by decide⟩
/-- R150: with that table the pixels 1, 1, 0, 0, 1, 0, 0, 1 of R155's example lie in bits 0, 1, 4 and 7. -/
theorem test_pack_other_table : packBy rightToLeft .m2 [1, 1, 0, 0, 1, 0, 0, 1] = 0x93 := by decide
/-- Mode 3; in mode 1 the last nibble at 4, and at 3. -/
theorem witness_PackPacksArgNibbles : ({ State.reset with mode := 3 }).mode = 3 ∧
    (let s := { codec with arg0 := 0x4000 }
     s.gmode? = some .m1 ∧ ∃ k < GMode.m1.ppb, 2 ^ GMode.m1.bpp ≤ (s.arg0.toNat >>> (4 * k)) % 16) ∧
    (let s := { codec with arg0 := 0xFFFF3333 }
     s.gmode? = some .m1 ∧ ∀ k < GMode.m1.ppb, (s.arg0.toNat >>> (4 * k)) % 16 < 2 ^ GMode.m1.bpp) := by decide
theorem witness_UnpackGivesNibbles : ({ State.reset with mode := 3 }).mode = 3 ∧
    ({ State.reset with mode := 2 }).gmode? = some .m2 := by decide
/-- The largest legal line width of each binding and the next one; the last position of the screen. -/
theorem witness_ScreenLayout :
    ({ screen80 with lineWidth := 256 }).screen.cfgOk = true ∧
    ({ screen80 with lineWidth := 257 }).screen.cfgOk = false ∧
    ({ screen80 with lineWidth := 0 }).screen.cfgOk = false ∧
    ({ screen80 with lineWidth := 2048, binding := .interleaved }).screen.cfgOk = true ∧
    ({ screen80 with lineWidth := 2049, binding := .interleaved }).screen.cfgOk = false ∧
    screen80.screen.inRange 79 63 = true ∧ screen80.binding = .literal ∧
    ({ screen80 with binding := .interleaved, ctrl := 2 }).screen.inRange 79 399 = true := by decide
theorem witness_ScreenOffsetInjective : screen80.screen.cfgOk = true ∧ screen80.screen.inRange 79 63 = true ∧
    screen80.screen.offset 79 63 = screen80.screen.offset 79 63 := by decide
theorem witness_ScreenInverse : screen80.screen.cfgOk = true ∧ screen80.screen.inRange 79 63 = true ∧
    screen80.screen.inverse .m1 0xC051 = ⟨true, 4, 1⟩ := by decide
/-- Mode 3, a line width the binding refuses, the last position and the first row beyond it. -/
theorem witness_SafwdTranslates : ({ screen80 with mode := 3 }).mode = 3 ∧ screen80.gmode? = some .m1 ∧
    ({ screen80 with lineWidth := 257 }).screen.cfgOk = false ∧ screen80.screen.cfgOk = true ∧
    screen80.screen.inRange (319 / GMode.m1.ppb) 63 = true ∧
    screen80.screen.inRange (0 / GMode.m1.ppb) 64 = false ∧ screen80.screen.inRange (320 / GMode.m1.ppb) 0 = false := by
  decide
theorem witness_SainvFindsTheCoordinate : ({ screen80 with mode := 3 }).mode = 3 ∧ screen80.gmode? = some .m1 ∧
    ({ screen80 with lineWidth := 257 }).screen.cfgOk = false ∧ screen80.screen.cfgOk = true ∧
    screen80.screen.inRange 1 1 = true ∧
    (0xC051#32).extractLsb' 0 16 = screen80.origin + BitVec.ofNat 16 (screen80.screen.offset 1 1) := by decide
/-- A screen one byte wide: the address 8 beyond ORIGIN lies in the gap after band 0. -/
theorem witness_SainvFindsTheCoordinate_gap :
    let s := { screen80 with lineWidth := 1, arg0 := 0xC008 }
    s.gmode? = some .m1 ∧ s.screen.cfgOk = true ∧
    ∀ g y, s.screen.inRange g y = true →
      s.arg0.extractLsb' 0 16 ≠ s.origin + BitVec.ofNat 16 (s.screen.offset g y) := by
  refine ⟨by decide, by decide, fun g y h => ?_⟩
  simp only [Screen.inRange, Bool.and_eq_true, decide_eq_true_eq] at h
  have hg : g < 1 := h.1
  have hy : y < 64 := h.2
  have h2 : ∀ y < 64, (0xC008#32).extractLsb' 0 16 ≠
      (0xC000#16) + BitVec.ofNat 16 (({ screen80 with lineWidth := 1 } : State).screen.offset 0 y) := by decide
  obtain rfl : g = 0 := by omega
  exact h2 y hy
theorem witness_FrameCommandsRejectInOrder_config : ({ codec with mode := 3 }).mode = 3 ∧ codec.gmode? = some .m1 ∧
    (¬ ({ codec with colors := 5 }).PaletteOk .m1 .a) ∧ (¬ ({ codec with palLen := ⟨4, 0⟩ }).PaletteOk .m1 .b) ∧
    (let s := { codec with ctrl := 0 }
     s.PaletteOk .m1 .a ∧ s.PaletteOk .m1 .b ∧ s.sprite = false ∧ s.screen.cfgOk = false) := by decide
/-- A width that is no multiple of the group, and frame lengths of 8 bytes for a frame of 4. -/
theorem witness_FrameCommandsRejectInOrder_dimensions :
    let s : State := { frames with width := 6, fbLen := ⟨8, 8⟩ }
    s.PaletteOk .m1 .a ∧ s.PaletteOk .m1 .b ∧ ¬ (s.sprite = false ∧ s.screen.cfgOk = false) ∧
    ¬ s.EncodeAccepts .m1 .a ∧ ¬ s.DecodeAccepts .m1 .a ∧ ¬ s.DiffiAccepts .m1 ∧
    s.fbLen.a = s.fbLen.b ∧ ¬ s.DiffAccepts .m1 :=
  ⟨by decide, by decide, by decide, by decide, by decide, by decide, by decide, by decide⟩
theorem witness_FrameCommandsRejectInOrder_size :
    let s : State := { frames with fbLen := ⟨4, 8⟩ }
    ¬ (s.sprite = false ∧ s.screen.cfgOk = false) ∧ s.fbLen.a ≠ s.fbLen.b := by decide
/-- A sprite and an addressed frame; byte 2 of the addressed one is a gap. -/
theorem witness_EncodeWritesTheFrame : codec.EncodeAccepts .m1 .a ∧
    (let s := { codec with ctrl := 0, lineWidth := 80 }
     s.EncodeAccepts .m1 .a ∧ s.ctrl.getLsbD 0 = false ∧ codec.ctrl.getLsbD 0 = true ∧ 2 < s.frameLen .m1 ∧
     ∀ g < s.width.toNat / GMode.m1.ppb, ∀ y < s.height.toNat, s.loc .m1 g y ≠ 2) := by decide
/-- In group column 1 of row 1 of an image whose palette holds every colour twice, pixel 3 has the colour of position
1; with the palette cut to one entry it has a colour that is not there. -/
theorem witness_OneMissPerMissingPixel : codec.width.toNat % GMode.m1.ppb = 0 ∧ 3 < GMode.m1.ppb ∧
    (let s := { codec with palLen := ⟨8, 4⟩, pal := ⟨mem (inks ++ inks), []⟩ }
     let colour := s.imgAt .a (1 * s.width.toNat + 1 * GMode.m1.ppb + 3)
     1 < (s.palLen.get .a).toNat ∧ s.palAt .a 1 = colour ∧ s.palAt .a 5 = colour ∧ ∀ j < 1, s.palAt .a j ≠ colour) ∧
    (let s := { codec with palLen := ⟨1, 4⟩ }
     ∀ i < (s.palLen.get .a).toNat,
       s.palAt .a i ≠ s.imgAt .a (1 * s.width.toNat + 1 * GMode.m1.ppb + 3)) := by decide
theorem witness_DecodeWritesTheImage : frames.DecodeAccepts .m1 .a ∧
    ({ frames with ctrl := 2, lineWidth := 80, fbLen := ⟨0x8000, 0⟩ }).DecodeAccepts .m1 .a := by decide
theorem witness_EncodeThenDecodeRestoresImage : codec.EncodeAccepts .m1 .a ∧
    ∀ i < codec.width.toNat * codec.height.toNat,
      ∃ k < (codec.palLen.get .a).toNat, codec.palAt .a k = codec.imgAt .a i := by decide
theorem witness_DecodeThenEncodeRestoresFrame : frames.DecodeAccepts .m1 .a ∧
    (∀ x < frames.width.toNat, ∀ y < frames.height.toNat,
      frames.frameIndexAt .m1 .a x y < (frames.palLen.get .a).toNat) ∧
    ∀ j < (frames.palLen.get .a).toNat, ∀ k < (frames.palLen.get .a).toNat,
      frames.palAt .a j = frames.palAt .a k → j = k := by decide
theorem witness_DeltaOrderContract : [(0x3F#8, 0xC050#16), (0x00, 0x0010), (0x3F, 0xC051)].length < 2 ^ 16 := by
  decide
theorem witness_DaddAccumulates : (0x40 : Byte) ∉ deltas.dt.map DtItem.byte ∧
    deltas.dt = [⟨0x3F, 2, [0xC050, 0xC051]⟩] ++ ⟨0x00, 1, [0x0010]⟩ :: [] ∧
    (0x00 : Byte) ∉ [(⟨0x3F, 2, [0xC050, 0xC051]⟩ : DtItem)].map DtItem.byte ∧ dtTotal deltas.dt ≠ 0x8000 := by
  decide
theorem total_of_one_item (b : Byte) (n : Nat) : dtTotal [⟨b, BitVec.ofNat 16 n, List.replicate n 0⟩] = n := by
  simp [dtTotal]
/-- A full table. -/
theorem witness_DaddAccumulates_full :
    dtTotal ({ deltas with dt := [⟨0x3F, BitVec.ofNat 16 0x8000, List.replicate 0x8000 0⟩] }).dt = 0x8000 :=
  total_of_one_item 0x3F 0x8000
theorem witness_DiffRecordsChangedGroups : frames.DiffAccepts .m1 ∧
    ({ frames with ctrl := 0, lineWidth := 80, fbLen := ⟨0x4000, 0x4000⟩ }).DiffAccepts .m1 := by decide
theorem witness_DiffiRecordsChangedGroups : codec.DiffiAccepts .m1 := by decide
theorem witness_DiffiEqualsEncodeEncodeDiff : codec.DiffiAccepts .m1 ∧
    ({ codec with ctrl := 0, lineWidth := 2 }).DiffiAccepts .m1 := by decide
/-- Both a changed position and an address of the table occur. -/
theorem witness_DeltaCompleteness : frames.DiffAccepts .m1 ∧ exec .diff frames = .next (after .diff frames) ∧
    (after .diff frames).err = 0 ∧ (1, 0) ∈ frames.rasterGroups .m1 ∧
    frames.fbAt .a (frames.loc .m1 1 0) ≠ frames.fbAt .b (frames.loc .m1 1 0) ∧
    (0x0001 : Addr16) ∈ (after .diff frames).dt.flatMap DtItem.addrs :=
  ⟨by decide, rfl, by decide, by decide, by decide, by decide⟩
theorem witness_MarshalWritesTheStream : DeltaTableOk deltas.dt ∧
    (⟨0x3F, 2, [0xC050, 0xC051]⟩ : DtItem).count.toNat = [0xC050#16, 0xC051].length := by decide
theorem witness_UnmarshalReplaysTheStream :
    let recs : List Record := [(0x3F, [0xC050, 0xC051]), (0x00, [0x0010])]
    stream.outLen.toNat ≤ 0x10400 ∧ (List.range stream.outLen.toNat).map stream.outAt = streamBytes recs ∧
    recs.length < 2 ^ 16 ∧ (∀ r ∈ recs, r.2.length ≤ 255) ∧ (recs.map fun r => r.2.length).sum ≤ 0x8000 := by decide
/-- One byte is no stream: the record count has two. -/
theorem witness_UnmarshalReplaysTheStream_bad :
    ∀ recs : List Record, ¬ ((List.range ({ stream with outLen := 1 }).outLen.toNat).map stream.outAt =
      streamBytes recs) := by
  intro recs h
  have := congrArg List.length h
  simp [streamBytes, bytesLE] at this
theorem witness_MarshalThenUnmarshalRestores : DeltaTableOk deltas.dt ∧ DeltaTableOk [] := by decide
theorem witness_TanalyzeBuildsTheCatalogue : board.AnalyzeAccepts .m0 .a ∧ 1 < board.tileH.toNat ∧
    0 < board.tileW.toNat / GMode.m0.ppb := by decide
theorem witness_TanalyzeRejects : ({ board with mode := 3 }).mode = 3 ∧ board.gmode? = some .m0 ∧
    ¬ ({ board with tileW := 3 }).AnalyzeAccepts .m0 .a := by decide
theorem witness_DifferenceMetric : [0xC0#8, 0x0C].length = [0x00#8, 0x00].length := by decide
theorem witness_TreduceMergesEntries : TileTable.empty.valid = false ∧
    ({ analysed.tb with sorted := true }).sorted = true ∧ analysed.tb.valid = true ∧ analysed.tb.sorted = false := by
  decide
theorem witness_ReducedCatalogue : (analysed.tb.entries.map TileEntry.content).Nodup ∧
    (analysed.tb.entries.map fun e => e.count.toNat).sum < 2 ^ 16 := by decide
theorem witness_TsortIsStable : State.reset.tb.valid = false ∧ analysed.tb.valid = true := by decide
/-- A table that is not valid, a frame length that does not fit, the first cell beyond the grid, a hit and a miss. -/
theorem witness_TlookupFindsTheTile : State.reset.tb.valid = false ∧
    (let s := { analysed with fbLen := ⟨31, 0⟩ }
     s.tb.valid = true ∧ ¬ s.CatalogueAccepts .a) ∧
    analysed.CatalogueAccepts .a ∧ analysed.tb.cols.toNat * analysed.tb.rows.toNat ≤ (16#32).toNat ∧
    (15#32).toNat < analysed.tb.cols.toNat * analysed.tb.rows.toNat ∧
    analysed.tb.entries[1]? = some ⟨[0xC0, 0x0C], 1⟩ ∧ [0xC0, 0x0C] = analysed.cellContent analysed.tb .a 5 ∧
    (∀ j < 1, ∀ f ∈ analysed.tb.entries[j]?, f.content ≠ analysed.cellContent analysed.tb .a 5) ∧
    (let s := { analysed with tb := { analysed.tb with entries := [⟨[0x00, 0x00], 16⟩] } }
     s.CatalogueAccepts .a ∧ ∀ e ∈ s.tb.entries, e.content ≠ s.cellContent s.tb .a 5) := by decide
theorem witness_TmapWritesEveryCell : State.reset.tb.valid = false ∧
    (let s := { analysed with fbLen := ⟨31, 0⟩ }
     s.tb.valid = true ∧ ¬ s.CatalogueAccepts .a) ∧ analysed.CatalogueAccepts .a ∧
    analysed.tb.entries[0]? = some ⟨[0x00, 0x00], 15⟩ ∧ [0x00, 0x00] = analysed.cellContent analysed.tb .a 15 ∧
    (let s := { analysed with tb := { analysed.tb with entries := [⟨[0x00, 0x00], 16⟩] } }
     s.CatalogueAccepts .a ∧ ∀ e ∈ s.tb.entries, e.content ≠ s.cellContent s.tb .a 5) := by decide
theorem witness_CatalogueIsExhaustive : exec (.tanalyze .a) board = .next (after (.tanalyze .a) board) ∧
    (after (.tanalyze .a) board).errCode = 0 ∧ (after (.tanalyze .a) board).tb.ovf = false ∧
    (15#32).toNat < (after (.tanalyze .a) board).tb.cells := ⟨rfl, by decide, by decide, by decide⟩
/-- A completed and a refused TANALYZE, TREDUCE and TSORT, and a TLOOKUP on an empty table. -/
theorem witness_TileTableLifeCycle :
    exec (.tanalyze .a) board = .next (after (.tanalyze .a) board) ∧ (after (.tanalyze .a) board).errCode = 0 ∧
    (after (.tanalyze .b) board).errCode ≠ 0 ∧ (after (.treduce 1) analysed).errCode = 0 ∧
    (after (.treduce 1) board).errCode ≠ 0 ∧ (after .tsort analysed).errCode = 0 ∧ analysed.tb.valid = true ∧
    (after .tsort board).errCode ≠ 0 ∧ board.tb.valid = false ∧
    Instr.nop.mnemonic ∉ [Mnemonic.TCLR, .SRESET, .TANALYZE, .TREDUCE, .TSORT] :=
  ⟨rfl, by decide, by decide, by decide, by decide, by decide, by decide, by decide, by decide, by decide⟩

/-- A state in which every invariant holds and whose next step changes a table. -/
def busy : State := { analysed with dt := deltas.dt, pending := [.write 0x00000 0x513F0001] }

theorem witness_StepKeepsDeltaTable : DeltaTableOk busy.dt ∧ step busy = .next (stateOf (step busy)) ∧
    (stateOf (step busy)).dt ≠ busy.dt := ⟨by decide, rfl, by decide⟩
theorem witness_StepKeepsTileTable :
    let s := { board with pending := [.write 0x00000 0x61000000] }
    TileTableOk s.tb ∧ step s = .next (stateOf (step s)) ∧ (stateOf (step s)).tb ≠ s.tb := ⟨by decide, rfl, by decide⟩
theorem witness_StepKeepsEveryRule : busy.Inv ∧ step busy = .next (stateOf (step busy)) :=
  ⟨⟨⟨fun sl => by cases sl <;> decide, by decide, by decide⟩,
    ⟨fun sl => by cases sl <;> decide, by decide, by decide⟩, by decide, by decide, .inr (by decide)⟩, rfl⟩

end Sys2Proof.Tests
end

section
/-! PROOFS. What a command can do, said once: it fails with one report, or it passes its prechecks and completes with
its operation; which fields of the state each command may write (10_state.md R20 to R57); that no command but SRESET
clears a FLAGS bit (R27). -/

namespace Sys2Proof.Machine

/-! ### The two outcomes of a command -/

/-- A guarded command that answers has failed with a report, or its prechecks have passed. -/
theorem guarded_next {w : Word} {cs : List Check} {s t : State} {op : State → State}
    (h : guarded w cs s op = .next t) :
    (∃ e, t = s.raise e w) ∨ firstFailure cs = none ∧ t = op s.clearReport := by
  rcases guarded_cases w cs s op with ⟨e, -, hg⟩ | ⟨hp, hg⟩ <;> rw [hg, Host.Outcome.next.injEq] at h
  · exact .inl ⟨e, h.symm⟩
  · exact .inr ⟨hp, h.symm⟩

/-- The same for a guarded command that reads MODE first. -/
theorem withMode_guarded_next {w : Word} {cs : GMode → List Check} {s t : State} {op : GMode → State → State}
    (h : (withMode w s fun m => guarded w (cs m) s (op m)) = .next t) :
    (∃ e, t = s.raise e w) ∨
      ∃ m, s.gmode? = some m ∧ firstFailure (cs m) = none ∧ t = op m s.clearReport := by
  rcases withMode_cases w s fun m => guarded w (cs m) s (op m) with ⟨-, hw⟩ | ⟨m, hm, hw⟩ <;> rw [hw] at h
  · exact .inl ⟨_, (Host.Outcome.next.inj h).symm⟩
  · exact (guarded_next h).imp id fun ⟨hp, ht⟩ => ⟨m, hm, hp, ht⟩

/-- The commands' operations: `Completes s i t` says that the prechecks of `i` pass in `s` and that its operation then
leaves `t`. The prechecks stand here as the accepted configuration where the model has a name for it, and as the
command states them elsewhere. -/
inductive Completes (s : State) : Instr → State → Prop
  | nop : Completes s .nop s.clearReport
  | sreset : Completes s .sreset s.clearReport.softReset
  | plookup (sl : Slot) (hp : firstFailure [(Config.palEntries < (s.palLen.get sl).toNat, .badConfig)] = none) :
      Completes s (.plookup sl) (s.clearReport.reportLookup (s.lookup sl s.arg0))
  | pack (m : GMode) (hm : s.gmode? = some m)
      (hp : firstFailure [((nibbles m s.arg0).any (fun p => 2 ^ m.bpp ≤ p), .indexOutOfRange)] = none) :
      Completes s .pack (s.clearReport.setRes (zext32 (Machine.pack m (nibbles m s.arg0))) 0)
  | unpack (m : GMode) (hm : s.gmode? = some m) :
      Completes s .unpack
        (s.clearReport.setRes (BitVec.ofNat _ (fromNibbles (Machine.unpack m (s.arg0.setWidth 8)))) 0)
  | safwd (m : GMode) (hm : s.gmode? = some m) (hp : firstFailure [(!s.screen.cfgOk, .badConfig)] = none) :
      Completes s .safwd (s.clearReport.reportTranslation (s.screen.forward m s.arg0.toNat s.arg1.toNat))
  | sainv (m : GMode) (hm : s.gmode? = some m) (hp : firstFailure [(!s.screen.cfgOk, .badConfig)] = none) :
      Completes s .sainv (s.clearReport.reportTranslation (s.screen.inverse m (s.arg0.setWidth _)))
  | encodeFrame (sl : Slot) (m : GMode) (ha : s.EncodeAccepts m sl) :
      Completes s (.encodeFrame sl) (s.clearReport.encodeSlot m sl)
  | decodeFrame (sl : Slot) (m : GMode) (ha : s.DecodeAccepts m sl) :
      Completes s (.decodeFrame sl) (s.clearReport.decodeSlot m sl)
  | dclr : Completes s .dclr { s.clearReport with dt := [] }
  | dadd (v : Byte) (a : Addr16) (hp : dtTotal s.dt ≠ Config.dtAddrCap) :
      Completes s (.dadd v a) { s.clearReport with dt := dtAdd v a s.dt }
  | diff (m : GMode) (ha : s.DiffAccepts m) : Completes s .diff (s.clearReport.accumulate (s.frameChanges m))
  | diffi (m : GMode) (ha : s.DiffiAccepts m) :
      Completes s .diffi ((s.clearReport.accumulate (s.imageChanges m)).flag .notFound
        (s.imageMisses m .a + s.imageMisses m .b))
  | marshal : Completes s .marshal s.clearReport.marshalTable
  | unmarshal (recs : List Record) (hp : s.outRecords = some recs) :
      Completes s .unmarshal { s.clearReport with dt := dtAddAll [] (replayList recs) }
  | tclr : Completes s .tclr (s.clearReport.setTable TileTable.empty)
  | tanalyze (sl : Slot) (m : GMode) (ha : s.AnalyzeAccepts m sl) :
      Completes s (.tanalyze sl) (s.clearReport.analyze m sl)
  | treduce (imm16 : BitVec 16) (hv : s.tb.valid = true) (hs : s.tb.sorted = false) :
      Completes s (.treduce imm16) (s.clearReport.setTable
        { s.tb with entries := reduceTiles s.tb.mode imm16.toNat s.ntiles s.tb.entries })
  | tsort (hv : s.tb.valid = true) :
      Completes s .tsort ((s.clearReport.setTable
        { s.tb with entries := sortTiles s.tb.entries, sorted := true }).flag
          .capacityExceeded (if s.tb.ovf then 1 else 0))
  | tlookup (sl : Slot) (hp : firstFailure (s.catalogueChecks sl ++
        [(decide (s.tb.cells ≤ s.arg0.toNat), Err.invalidDimensions)]) = none) :
      Completes s (.tlookup sl) (s.clearReport.reportLookup (s.cellIndex sl s.arg0.toNat))
  | tmap (sl : Slot) (ha : s.CatalogueAccepts sl) : Completes s (.tmap sl) (s.clearReport.mapTiles sl)

/-- A command that answers has failed with one report of R286, or it completes. -/
theorem exec_next {i : Instr} {s t : State} (h : exec i s = .next t) :
    (∃ e, t = s.raise e (encode i)) ∨ Completes s i t := by
  cases i with
  | nop =>
    unfold exec execNop at h
    exact (guarded_next h).imp id fun ⟨_, ht⟩ => ht ▸ .nop
  | sreset =>
    unfold exec execSreset at h
    exact (guarded_next h).imp id fun ⟨_, ht⟩ => ht ▸ .sreset
  | plookup sl => exact (guarded_next h).imp id fun ⟨hp, ht⟩ => ht ▸ .plookup sl hp
  | pack => exact (withMode_guarded_next h).imp id fun ⟨m, hm, hp, ht⟩ => ht ▸ .pack m hm hp
  | unpack => exact (withMode_guarded_next h).imp id fun ⟨m, hm, _, ht⟩ => ht ▸ .unpack m hm
  | safwd => exact (withMode_guarded_next h).imp id fun ⟨m, hm, hp, ht⟩ => ht ▸ .safwd m hm hp
  | sainv => exact (withMode_guarded_next h).imp id fun ⟨m, hm, hp, ht⟩ => ht ▸ .sainv m hm hp
  | encodeFrame sl =>
    exact (withMode_guarded_next h).imp id fun ⟨m, hm, hp, ht⟩ =>
      ht ▸ .encodeFrame sl m ((State.encodeChecks_pass hm).1 hp)
  | decodeFrame sl =>
    exact (withMode_guarded_next h).imp id fun ⟨m, hm, hp, ht⟩ =>
      ht ▸ .decodeFrame sl m ((State.decodeChecks_pass hm).1 hp)
  | dclr =>
    unfold exec execDclr at h
    exact (guarded_next h).imp id fun ⟨_, ht⟩ => ht ▸ .dclr
  | dadd v a =>
    unfold exec execDadd at h
    exact (guarded_next h).imp id fun ⟨hp, ht⟩ => ht ▸ .dadd v a (by simpa using hp)
  | diff =>
    exact (withMode_guarded_next h).imp id fun ⟨m, hm, hp, ht⟩ => ht ▸ .diff m ((State.diffChecks_pass hm).1 hp)
  | diffi =>
    exact (withMode_guarded_next h).imp id fun ⟨m, hm, hp, ht⟩ => ht ▸ .diffi m ((State.diffiChecks_pass hm).1 hp)
  | marshal =>
    unfold exec execMarshal at h
    exact (guarded_next h).imp id fun ⟨_, ht⟩ => ht ▸ .marshal
  | unmarshal =>
    unfold exec execUnmarshal at h
    refine (guarded_next h).imp id fun ⟨hp, ht⟩ => ?_
    cases hr : s.outRecords with
    | none => simp [hr] at hp
    | some recs => exact ht ▸ hr ▸ .unmarshal recs hr
  | tclr =>
    unfold exec execTclr at h
    exact (guarded_next h).imp id fun ⟨_, ht⟩ => ht ▸ .tclr
  | tanalyze sl =>
    exact (withMode_guarded_next h).imp id fun ⟨m, hm, hp, ht⟩ =>
      ht ▸ .tanalyze sl m ((State.analyzeChecks_pass hm).1 hp)
  | treduce imm16 =>
    unfold exec execTreduce at h
    refine (guarded_next h).imp id fun ⟨hp, ht⟩ => ?_
    have hc : s.tb.valid = true ∧ s.tb.sorted = false := by simpa using hp
    exact ht ▸ .treduce imm16 hc.1 hc.2
  | tsort =>
    unfold exec execTsort at h
    exact (guarded_next h).imp id fun ⟨hp, ht⟩ => ht ▸ .tsort (by simpa using hp)
  | tlookup sl => exact (guarded_next h).imp id fun ⟨hp, ht⟩ => ht ▸ .tlookup sl hp
  | tmap sl => exact (guarded_next h).imp id fun ⟨hp, ht⟩ => ht ▸ .tmap sl (State.catalogueChecks_pass.1 hp)

/-! ### Which fields a command may write -/

/-- `s` with the report registers of `t`: ERR, ERRCMD, FLAGS and the event counters. -/
def State.withReportOf (s t : State) : State :=
  { s with
    err := t.err, errCmd := t.errCmd, flags := t.flags
    nfCnt := t.nfCnt, aoorCnt := t.aoorCnt, tovfCnt := t.tovfCnt }

/-- `s` with the report registers of `t` and with those fields of `t` that the command may write
(10_state.md R22, R37 to R39, R46 to R52; 46_system.md R271). Every other field is that of `s`. -/
def commandFrame (i : Instr) (s t : State) : State :=
  match i with
  | .nop => s.withReportOf t
  | .sreset =>
    { t with
      pal := s.pal, img := s.img, fb := s.fb, out := s.out, map := s.map, binding := s.binding, epoch := s.epoch
      inReset := s.inReset, pending := s.pending, busData := s.busData }
  | .plookup _ | .pack | .unpack | .safwd | .sainv | .tlookup _ => (s.withReportOf t).setRes t.res0 t.res1
  | .encodeFrame _ => { s.withReportOf t with fb := t.fb, fbLen := t.fbLen }
  | .decodeFrame _ => { s.withReportOf t with img := t.img }
  | .dclr | .dadd _ _ | .diff | .diffi | .unmarshal => { s.withReportOf t with dt := t.dt }
  | .marshal => { s.withReportOf t with out := t.out, outLen := t.outLen }
  | .tclr | .tanalyze _ | .treduce _ | .tsort => { s.withReportOf t with tb := t.tb, tileEpoch := t.tileEpoch }
  | .tmap _ => { s.withReportOf t with map := t.map, mapLen := t.mapLen }

section
variable (i : Instr) (s u : State)

@[simp] theorem commandFrame_pal : (commandFrame i s u).pal = s.pal := by cases i <;> rfl
@[simp] theorem commandFrame_binding : (commandFrame i s u).binding = s.binding := by cases i <;> rfl
@[simp] theorem commandFrame_epoch : (commandFrame i s u).epoch = s.epoch := by cases i <;> rfl
@[simp] theorem commandFrame_inReset : (commandFrame i s u).inReset = s.inReset := by cases i <;> rfl
@[simp] theorem commandFrame_pending : (commandFrame i s u).pending = s.pending := by cases i <;> rfl
@[simp] theorem commandFrame_busData : (commandFrame i s u).busData = s.busData := by cases i <;> rfl

end

/-- A look-up writes the report registers, RES0 and RES1. -/
theorem State.reportLookup_frame (s : State) (r : Option Nat) :
    s.clearReport.reportLookup r = (s.withReportOf (s.clearReport.reportLookup r)).setRes
      (s.clearReport.reportLookup r).res0 (s.clearReport.reportLookup r).res1 := by
  cases r <;> rfl

/-- A command that completes writes the fields of its frame only. -/
theorem Completes.eq_frame {s t : State} {i : Instr} (h : Completes s i t) : t = commandFrame i s t := by
  cases h with
  | plookup | tlookup => exact State.reportLookup_frame s _
  | nop | sreset | pack | unpack | safwd | sainv | encodeFrame | decodeFrame | dclr | dadd | diff | diffi | marshal
  | unmarshal | tclr | tanalyze | treduce | tsort | tmap => rfl

/-- A command changes nothing outside its frame, whether it completes or fails. -/
theorem exec_frame {i : Instr} {s t : State} (h : exec i s = .next t) : ∃ u, t = commandFrame i s u := by
  refine ⟨t, ?_⟩
  rcases exec_next h with ⟨e, rfl⟩ | hc
  · cases i <;> rfl
  · exact hc.eq_frame

/-! ### FLAGS only gains bits -/

/-- `f` has no bit that `g` lacks. -/
abbrev FlagsWithin (f g : BitVec 10) : Prop := f &&& g = f

theorem FlagsWithin.or {f g : BitVec 10} (h : FlagsWithin f g) (b : BitVec 10) : FlagsWithin f (g ||| b) := by
  rw [FlagsWithin, BitVec.and_or_distrib_left, show f &&& g = f from h]
  ext k hk
  simp +contextual

/-- Flagging an event keeps every bit of FLAGS. -/
theorem FlagsWithin.flag {f : BitVec 10} {s : State} (h : FlagsWithin f s.flags) (e : Event) (n : Nat) :
    FlagsWithin f (s.flag e n).flags := by
  rw [State.flag_flags]
  split
  · exact h
  · exact h.or _

theorem FlagsWithin.reportLookup {f : BitVec 10} {s : State} (h : FlagsWithin f s.flags) (r : Option Nat) :
    FlagsWithin f (s.reportLookup r).flags := by
  cases r with
  | none => exact h.flag .notFound 1
  | some _ => exact h

/-- No command but SRESET clears a bit of FLAGS (10_state.md R27): each operation leaves FLAGS alone or flags events. -/
theorem Completes.flagsWithin {s t : State} {i : Instr} (h : Completes s i t) (hi : i ≠ .sreset) :
    FlagsWithin s.flags t.flags := by
  have h0 : FlagsWithin s.flags s.flags := BitVec.and_self
  cases h with
  | sreset => exact absurd rfl hi
  | plookup | tlookup => exact FlagsWithin.reportLookup (s := s.clearReport) h0 _
  | safwd | sainv | diff | encodeFrame | decodeFrame | tanalyze | tsort | tmap => exact h0.flag _ _
  | diffi => exact (h0.flag _ _).flag _ _
  | nop | pack | unpack | dclr | dadd | marshal | unmarshal | tclr | treduce => exact h0

theorem exec_flagsWithin {i : Instr} {s t : State} (h : exec i s = .next t) (hi : i ≠ .sreset) :
    FlagsWithin s.flags t.flags := by
  rcases exec_next h with ⟨e, rfl⟩ | hc
  · exact FlagsWithin.or BitVec.and_self _
  · exact hc.flagsWithin hi

/-! ### The statements on what commands may write -/

/-- Settles O20: the configuration is outside the frame of every command but SRESET, the build parameter and the host's
side outside every frame, and no operation clears a bit of FLAGS. -/
theorem commandsKeepConfiguration : Obligations.CommandsKeepConfiguration := by
  intro i s t h
  have hflags := exec_flagsWithin h
  obtain ⟨u, rfl⟩ := exec_frame h
  refine ⟨commandFrame_binding i s u, commandFrame_epoch i s u, commandFrame_inReset i s u,
    commandFrame_pending i s u, commandFrame_busData i s u, fun hi => ⟨hflags hi, ?_⟩⟩
  cases i with
  | sreset => exact absurd rfl hi
  | _ => exact ⟨rfl, rfl, rfl, rfl, rfl, rfl, rfl, rfl, rfl, rfl, rfl, rfl, rfl, rfl, rfl, rfl, rfl⟩

/-- Settles O21: each memory, table and result register is in the frame of its writers only. -/
theorem eachStoreHasItsWriters : Obligations.EachStoreHasItsWriters := by
  intro i s t h
  obtain ⟨u, rfl⟩ := exec_frame h
  refine ⟨commandFrame_pal i s u, fun hi => ?img, fun hi => ?fb, fun hi => ?out, fun hi => ?map, fun hi => ?dt,
    fun hi => ?tb, fun hi => ?res⟩
  case img =>
    cases i with
    | decodeFrame sl => exact absurd rfl (hi sl)
    | _ => rfl
  case fb =>
    cases i with
    | encodeFrame sl => exact absurd rfl (hi sl)
    | sreset => exact ⟨rfl, fun hr => absurd rfl hr⟩
    | _ => exact ⟨rfl, fun _ => rfl⟩
  case out =>
    cases i with
    | marshal => exact absurd rfl hi
    | sreset => exact ⟨rfl, fun hr => absurd rfl hr⟩
    | _ => exact ⟨rfl, fun _ => rfl⟩
  case map =>
    cases i with
    | tmap sl => exact absurd rfl (hi sl)
    | sreset => exact ⟨rfl, fun hr => absurd rfl hr⟩
    | _ => exact ⟨rfl, fun _ => rfl⟩
  case dt =>
    cases i with
    | sreset | dclr | dadd | diff | diffi | unmarshal => simp [Instr.mnemonic] at hi
    | _ => rfl
  case tb =>
    cases i with
    | sreset | tclr | tanalyze | treduce | tsort => simp [Instr.mnemonic] at hi
    | _ => rfl
  case res =>
    cases i with
    | sreset | plookup | pack | unpack | safwd | sainv | tlookup => simp [Instr.mnemonic] at hi
    | _ => exact ⟨rfl, rfl⟩

end Sys2Proof.Machine
end

section
/-! PROOFS. The rules of the delta table (10_state.md R51): one accumulated change keeps them, so every command that
rebuilds or extends the table does, and so does every step. -/

namespace Sys2Proof.Machine

/-! ### What a step can do to the tables -/

@[simp] theorem State.writeReg_dt (s : State) (r : Reg) (v : Word) : (s.writeReg r v).dt = s.dt := by cases r <;> rfl
@[simp] theorem State.writeReg_tb (s : State) (r : Reg) (v : Word) : (s.writeReg r v).tb = s.tb := by cases r <;> rfl
@[simp] theorem State.writeElem_dt (s : State) (i : Nat) (v : Word) (m : Window) : (s.writeElem i v m).dt = s.dt := by
  cases m <;> rfl
@[simp] theorem State.writeElem_tb (s : State) (i : Nat) (v : Word) (m : Window) : (s.writeElem i v m).tb = s.tb := by
  cases m <;> rfl

@[simp] theorem State.reportLookup_dt (s : State) (r : Option Nat) : (s.reportLookup r).dt = s.dt := by
  cases r <;> rfl
@[simp] theorem State.reportLookup_tb (s : State) (r : Option Nat) : (s.reportLookup r).tb = s.tb := by
  cases r <;> rfl

/-- The reset line keeps both tables or empties both. -/
theorem resetLine_tables (a : Bool) (s : State) :
    ((resetLine a s).dt = s.dt ∧ (resetLine a s).tb = s.tb) ∨
    ((resetLine a s).dt = [] ∧ (resetLine a s).tb = TileTable.empty) := by
  unfold resetLine
  split
  · exact .inl ⟨rfl, rfl⟩
  · split
    · exact .inr ⟨rfl, rfl⟩
    · exact .inl ⟨rfl, rfl⟩

/-- A step keeps both tables, empties both, or runs a command in a state with the same tables. -/
theorem step_tables {s t : State} (h : step s = .next t) :
    (t.dt = s.dt ∧ t.tb = s.tb) ∨ (t.dt = [] ∧ t.tb = TileTable.empty) ∨
    ∃ i s', s'.dt = s.dt ∧ s'.tb = s.tb ∧ exec i s' = .next t := by
  rcases step_cases s with ⟨-, hs⟩ | ⟨op, rest, -, hs⟩ <;> rw [hs] at h
  · obtain rfl := Host.Outcome.next.inj h
    exact .inl ⟨rfl, rfl⟩
  rcases runOp_next h with ⟨a, -, rfl⟩ | ⟨wa, -, -, hr⟩ | ⟨wa, v, -, -, hw⟩
  · exact (resetLine_tables a _).imp id .inl
  · obtain ⟨d, rfl⟩ := hostRead_next hr
    exact .inl ⟨rfl, rfl⟩
  rcases hostWrite_next hw with ⟨-, hc⟩ | ⟨r, -, -, rfl⟩ | ⟨m, i, -, rfl⟩
  · rcases runCommand_cases v { s with pending := rest, busData := none } with ⟨i, -, hi⟩ | ⟨e, -, hi⟩
    · exact .inr (.inr ⟨i, { s with pending := rest, busData := none }, rfl, rfl, hi.symm.trans hc⟩)
    · obtain rfl := Host.Outcome.next.inj (hi.symm.trans hc)
      exact .inl ⟨rfl, rfl⟩
  · exact .inl ⟨State.writeReg_dt .., State.writeReg_tb ..⟩
  · exact .inl ⟨State.writeElem_dt .., State.writeElem_tb ..⟩

/-! ### One accumulated change -/

@[simp] theorem dtTotal_nil : dtTotal [] = 0 := rfl
@[simp] theorem dtTotal_cons (it : DtItem) (dt : List DtItem) :
    dtTotal (it :: dt) = it.addrs.length + dtTotal dt := rfl

/-- R51 (a) of one item: its count is the length of its list of addresses, which is not empty. -/
abbrev DtItem.CountOk (it : DtItem) : Prop := it.count.toNat = it.addrs.length ∧ 1 ≤ it.addrs.length

/-- A count that is incremented does not wrap, as it is the length of a list shorter than 2^16 - 1. -/
theorem countOk_dtAdd (b : Byte) (a : Addr16) {dt : List DtItem} (h : ∀ it ∈ dt, it.CountOk)
    (hn : dtTotal dt < 2 ^ 16 - 1) : ∀ it ∈ dtAdd b a dt, it.CountOk := by
  induction dt with
  | nil => simp [dtAdd, DtItem.CountOk]
  | cons it rest ih =>
    obtain ⟨⟨hc, hl⟩, hrest⟩ := List.forall_mem_cons.1 h
    rw [dtTotal_cons] at hn
    unfold dtAdd
    split
    · refine List.forall_mem_cons.2 ⟨⟨?_, by simp⟩, hrest⟩
      rw [BitVec.toNat_add, hc, List.length_append]
      exact Nat.mod_eq_of_lt (show it.addrs.length + 1 < 2 ^ 16 by omega)
    · exact List.forall_mem_cons.2 ⟨⟨hc, hl⟩, ih hrest (by omega)⟩

theorem deltaTableOk_nil : DeltaTableOk [] := by decide

/-- DTadd keeps the rules while the table has room (44_delta_engine.md R211). -/
theorem DeltaTableOk.dtAdd {dt : List DtItem} (h : DeltaTableOk dt) (hn : dtTotal dt < Config.dtAddrCap)
    (b : Byte) (a : Addr16) : DeltaTableOk (dtAdd b a dt) := by
  obtain ⟨hcount, hnodup, -⟩ := h
  have hcap : Config.dtAddrCap ≤ 2 ^ 16 - 1 := by decide
  refine ⟨countOk_dtAdd b a hcount (by omega), ?_, by rw [dtTotal_dtAdd]; omega⟩
  rw [bytes_dtAdd]
  split
  · exact hnodup
  · exact hnodup.append (List.nodup_singleton b) (List.disjoint_singleton.2 ‹_›)

/-- Accumulating changes keeps the rules when the table has room for all of them. -/
theorem DeltaTableOk.dtAddAll {dt : List DtItem} (h : DeltaTableOk dt) (cs : List (Byte × Addr16))
    (hn : dtTotal dt + cs.length ≤ Config.dtAddrCap) : DeltaTableOk (dtAddAll dt cs) := by
  induction cs generalizing dt with
  | nil => exact h
  | cons c cs ih =>
    rw [List.length_cons] at hn
    exact ih (h.dtAdd (by omega) c.1 c.2) (by rw [dtTotal_dtAdd]; omega)

/-! ### How many changes a command can accumulate -/

/-- An accepted screen has no more byte positions than two banks have bytes (42_screen_addressing.md R171 to R174). -/
theorem Screen.lineWidth_mul_rows_le {c : Screen} (h : c.cfgOk = true) (hb : c.banks ≤ 2) :
    c.lineWidth * c.rows ≤ 2 * Config.bankSize := by
  obtain ⟨-, hlit, hint⟩ := Screen.cfgOk_iff.1 h
  unfold Screen.rows Screen.rowsPerBank
  cases hc : c.binding with
  | literal =>
    have hw : c.lineWidth ≤ 256 := by have := hlit hc; omega
    calc c.lineWidth * (8 * (0x4000 / 0x800) * c.banks) ≤ 256 * (64 * 2) := by gcongr
      _ = 2 * Config.bankSize := rfl
  | interleaved =>
    calc c.lineWidth * (8 * (0x800 / c.lineWidth) * c.banks)
        = 8 * (c.lineWidth * (0x800 / c.lineWidth)) * c.banks := by ring
      _ ≤ 8 * 0x800 * 2 := by gcongr; exact Nat.mul_div_le _ _
      _ = 2 * Config.bankSize := rfl

/-- An accepted frame has at most FB_CAP packed bytes (43_frame_codec.md R190). -/
theorem State.FrameOk.length_positions_le {s : State} {m : GMode} (h : s.FrameOk m) :
    (s.positions m).length ≤ Config.fbCap := by
  obtain ⟨-, hcfg, -, -, -, hsprite, hscreen⟩ := h
  rw [State.length_positions, Nat.mul_comm]
  cases hs : s.sprite with
  | true => exact hsprite hs
  | false =>
    obtain ⟨hw, hh⟩ := hscreen hs
    have hb : s.screen.banks ≤ 2 := by rcases s.screen_banks with h | h <;> omega
    calc s.modeWidth m * s.height.toNat ≤ s.screen.lineWidth * s.screen.rows := Nat.mul_le_mul hw hh
      _ ≤ Config.fbCap := Screen.lineWidth_mul_rows_le (hcfg hs) hb

theorem State.length_changes_le (s : State) (m : GMode) (old new : Nat → Nat → Byte) :
    (s.changes m old new).length ≤ (s.positions m).length := List.length_filterMap_le _ _

/-- Rebuilding the table from the changes of an accepted frame gives a table that keeps the rules. -/
theorem deltaTableOk_changes {s : State} {m : GMode} (h : s.FrameOk m) (old new : Nat → Nat → Byte) :
    DeltaTableOk (dtAddAll [] ((s.changes m old new).map fun c => (c.byte, c.addr))) := by
  refine deltaTableOk_nil.dtAddAll _ ?_
  have := s.length_changes_le m old new
  have := h.length_positions_le
  have := fbCap_le_dtAddrCap
  rw [List.length_map, dtTotal_nil]
  omega

theorem length_replayList (recs : List Record) : (replayList recs).length = (recs.map (·.2.length)).sum := by
  simp [replayList, List.length_flatMap]

/-- A stream is only accepted when the table can hold its addresses (44_delta_engine.md R224). -/
theorem parseStream_total {bs : List Byte} {recs : List Record} (h : parseStream bs = some recs) :
    (recs.map (·.2.length)).sum ≤ Config.dtAddrCap := by
  unfold parseStream at h
  split at h
  · split at h
    · simp at h
    · split at h
      · obtain rfl := Option.some.inj h
        assumption
      · simp at h
  · simp at h
  · simp at h

/-- Replaying an accepted stream gives a table that keeps the rules. -/
theorem deltaTableOk_replay {s : State} {recs : List Record} (h : s.outRecords = some recs) :
    DeltaTableOk (dtAddAll [] (replayList recs)) := by
  refine deltaTableOk_nil.dtAddAll _ ?_
  unfold State.outRecords at h
  split at h
  · simp at h
  · simpa [length_replayList] using parseStream_total h

/-! ### Every command and every step -/

/-- A command keeps the rules of the delta table. -/
theorem exec_deltaTableOk {i : Instr} {s t : State} (h : exec i s = .next t) (hs : DeltaTableOk s.dt) :
    DeltaTableOk t.dt := by
  rcases exec_next h with ⟨e, rfl⟩ | hc
  · exact hs
  cases hc with
  | sreset | dclr => exact deltaTableOk_nil
  | dadd v a hp => exact hs.dtAdd (lt_of_le_of_ne hs.2.2 hp) v a
  | diff m ha => exact deltaTableOk_changes ha.1 _ _
  | diffi m ha => exact deltaTableOk_changes ha.1 _ _
  | unmarshal recs hp => exact deltaTableOk_replay hp
  | plookup | tlookup => rwa [State.reportLookup_dt]
  | nop | pack | unpack | safwd | sainv | encodeFrame | decodeFrame | marshal | tclr | tanalyze | treduce | tsort
  | tmap => exact hs

/-- Settles O58: a step keeps the delta table, empties it, or runs a command, which keeps its rules. -/
theorem stepKeepsDeltaTable : Obligations.StepKeepsDeltaTable := by
  intro s t hs h
  rcases step_tables h with ⟨hdt, -⟩ | ⟨hdt, -⟩ | ⟨i, s', hdt, -, hx⟩
  · exact hdt ▸ hs
  · exact hdt ▸ deltaTableOk_nil
  · exact exec_deltaTableOk hx (hdt ▸ hs)

end Sys2Proof.Machine
end

section
/-! PROOFS. The rules of the tile table (10_state.md R56, R57): what each command that writes the table does to the
contents and to the counts of its entries, and that every step keeps the rules. -/

namespace Sys2Proof.Machine

/-! ### The rules, apart for contents and for counts -/

/-- The occurrences of all entries together. -/
def tileTotal (es : List TileEntry) : Nat := (es.map fun e => e.count.toNat).sum

@[simp] theorem tileTotal_nil : tileTotal [] = 0 := rfl
@[simp] theorem tileTotal_cons (e : TileEntry) (es : List TileEntry) :
    tileTotal (e :: es) = e.count.toNat + tileTotal es := rfl
@[simp] theorem tileTotal_append (es fs : List TileEntry) : tileTotal (es ++ fs) = tileTotal es + tileTotal fs := by
  simp [tileTotal]

/-- R56 and R57 (a) of the contents: at most TILE_CAP of them, distinct, of `n` bytes each. -/
structure ContentsOk (n : Nat) (cs : List (List Byte)) : Prop where
  length_le : cs.length ≤ Config.tileCap
  nodup : cs.Nodup
  bytes : ∀ c ∈ cs, c.length = n

/-- R57 (b) of the counts: each is at least 1, and together they are at most `k`. -/
structure CountsOk (k : Nat) (es : List TileEntry) : Prop where
  pos : ∀ e ∈ es, 1 ≤ e.count.toNat
  total_le : tileTotal es ≤ k

theorem ContentsOk.sublist {n : Nat} {cs ds : List (List Byte)} (h : ContentsOk n cs) (hd : ds.Sublist cs) :
    ContentsOk n ds :=
  ⟨hd.length_le.trans h.length_le, h.nodup.sublist hd, fun c hc => h.bytes c (hd.subset hc)⟩

theorem ContentsOk.perm {n : Nat} {cs ds : List (List Byte)} (h : ContentsOk n cs) (hd : ds.Perm cs) :
    ContentsOk n ds :=
  ⟨hd.length_eq ▸ h.length_le, hd.nodup_iff.2 h.nodup, fun c hc => h.bytes c (hd.mem_iff.1 hc)⟩

/-- The rules of a table, with those of its entries taken together. -/
theorem tileTableOk_iff {tb : TileTable} : TileTableOk tb ↔
    ContentsOk tb.tbytes.toNat (tb.entries.map TileEntry.content) ∧ CountsOk Config.fbCap tb.entries ∧
    (tb.sorted = true → tb.entries.Pairwise fun e f => f.count.toNat ≤ e.count.toNat) ∧
    (tb.valid = false → tb = TileTable.empty) ∧ (tb.valid = true → 1 ≤ tb.tbytes.toNat) ∧
    tb.cells * tb.tbytes.toNat ≤ Config.fbCap := by
  constructor
  · rintro ⟨hlen, hnodup, hentry, htotal, hrest⟩
    exact ⟨⟨by simpa using hlen, hnodup, by simpa using fun e he => (hentry e he).2⟩,
      ⟨fun e he => (hentry e he).1, htotal⟩, hrest⟩
  · rintro ⟨⟨hlen, hnodup, hbytes⟩, ⟨hpos, htotal⟩, hrest⟩
    exact ⟨by simpa using hlen, hnodup,
      fun e he => ⟨hpos e he, hbytes _ (List.mem_map_of_mem he)⟩, htotal, hrest⟩

theorem tileTableOk_empty : TileTableOk TileTable.empty := by decide

/-! ### TANALYZE: registering the cells of a frame (45_tile_board.md R243) -/

/-- Counting one more occurrence does not wrap while the total is below 2^16 - 1. -/
theorem CountsOk.bumpTile {k : Nat} {es : List TileEntry} (h : CountsOk k es) (hk : k < 2 ^ 16 - 1) (t : List Byte) :
    CountsOk (k + 1) (bumpTile t es) := by
  induction es generalizing k with
  | nil => exact ⟨by simp [Machine.bumpTile], by simp [Machine.bumpTile]⟩
  | cons e es ih =>
    obtain ⟨hpos, htotal⟩ := h
    obtain ⟨he, hes⟩ := List.forall_mem_cons.1 hpos
    rw [tileTotal_cons] at htotal
    unfold Machine.bumpTile
    split
    · have hadd : (e.count + 1).toNat = e.count.toNat + 1 := by
        rw [BitVec.toNat_add]
        exact Nat.mod_eq_of_lt (show e.count.toNat + 1 < 2 ^ 16 by omega)
      exact ⟨List.forall_mem_cons.2 ⟨by simp only [hadd]; omega, hes⟩, by simp only [tileTotal_cons, hadd]; omega⟩
    · obtain ⟨hpos', htotal'⟩ := ih (k := tileTotal es) ⟨hes, le_rfl⟩ (by omega)
      exact ⟨List.forall_mem_cons.2 ⟨he, hpos'⟩, by rw [tileTotal_cons]; omega⟩

/-- Registering one cell keeps the contents' rules. -/
theorem ContentsOk.registerTile {n : Nat} {acc : List TileEntry × Nat}
    (h : ContentsOk n (acc.1.map TileEntry.content)) {t : List Byte} (ht : t.length = n) :
    ContentsOk n ((registerTile acc t).1.map TileEntry.content) := by
  rcases registerTile_cases acc t with ⟨-, hr⟩ | ⟨hnew, hroom, hr⟩ | ⟨-, -, hr⟩ <;> rw [hr]
  · rwa [contents_bumpTile]
  · obtain ⟨-, hnodup, hbytes⟩ := h
    rw [List.map_append]
    refine ⟨by simpa using hroom, hnodup.append (List.nodup_singleton t) (List.disjoint_singleton.2 hnew), ?_⟩
    simpa [or_imp, forall_and, ht] using hbytes
  · exact h

/-- Registering one cell adds at most one occurrence. -/
theorem CountsOk.registerTile {k : Nat} {acc : List TileEntry × Nat} (h : CountsOk k acc.1) (hk : k < 2 ^ 16 - 1)
    (t : List Byte) : CountsOk (k + 1) (registerTile acc t).1 := by
  rcases registerTile_cases acc t with ⟨-, hr⟩ | ⟨-, -, hr⟩ | ⟨-, -, hr⟩ <;> rw [hr]
  · exact h.bumpTile hk t
  · obtain ⟨hpos, htotal⟩ := h
    refine ⟨?_, by simpa using htotal⟩
    simpa [or_imp, forall_and] using hpos
  · exact ⟨h.pos, h.total_le.trans (Nat.le_succ k)⟩

/-- Registering a list of cells keeps the contents' rules and adds at most one occurrence for each cell. -/
theorem foldl_registerTile_ok {n : Nat} (ts : List (List Byte)) {k : Nat} {acc : List TileEntry × Nat}
    (hc : ContentsOk n (acc.1.map TileEntry.content)) (hk : CountsOk k acc.1)
    (hts : ∀ t ∈ ts, t.length = n) (hlen : k + ts.length ≤ 2 ^ 16 - 1) :
    ContentsOk n ((ts.foldl registerTile acc).1.map TileEntry.content) ∧
    CountsOk (k + ts.length) (ts.foldl registerTile acc).1 := by
  induction ts generalizing k acc with
  | nil => exact ⟨hc, hk⟩
  | cons t ts ih =>
    obtain ⟨ht, hts⟩ := List.forall_mem_cons.1 hts
    rw [List.length_cons] at hlen ⊢
    have := ih (hc.registerTile ht) (hk.registerTile (by omega) t) hts (by omega)
    rwa [show k + (ts.length + 1) = k + 1 + ts.length by omega]

theorem State.length_cellContent (s : State) (tb : TileTable) (sl : Slot) (n : Nat) :
    (s.cellContent tb sl n).length = tb.tbytes.toNat := by simp [State.cellContent]

/-- The catalogue of a grid whose cells fit the counters. -/
theorem State.scanTiles_ok (s : State) (tb : TileTable) (sl : Slot) (h : tb.cells ≤ Config.fbCap) :
    ContentsOk tb.tbytes.toNat ((s.scanTiles tb sl).1.map TileEntry.content) ∧
    CountsOk Config.fbCap (s.scanTiles tb sl).1 := by
  have hcap : Config.fbCap ≤ 2 ^ 16 - 1 := by decide
  obtain ⟨hcontents, hcounts⟩ := foldl_registerTile_ok (n := tb.tbytes.toNat) (k := 0) (acc := ([], 0))
    ((List.range tb.cells).map (s.cellContent tb sl)) ⟨by simp, by simp, by simp⟩ ⟨by simp, by simp⟩
    (by simp [State.length_cellContent]) (by simp; omega)
  rw [Nat.zero_add, List.length_map, List.length_range] at hcounts
  exact ⟨hcontents, hcounts.pos, hcounts.total_le.trans h⟩

/-- The captured fields hold the numbers of R241, and the captured grid has the bytes of the frame at most. -/
theorem State.AnalyzeAccepts.captured {s : State} {m : GMode} {sl : Slot} (h : s.AnalyzeAccepts m sl) :
    1 ≤ (s.capturedGeometry m).tbytes.toNat ∧
    (s.capturedGeometry m).cells * (s.capturedGeometry m).tbytes.toNat ≤ Config.fbCap := by
  obtain ⟨-, -, -, -, htw, hth, hpix, -, -, hbytes, hframe, -⟩ := h
  have hcols : (s.capturedGeometry m).cols.toNat = s.width.toNat / s.tileW.toNat :=
    Nat.mod_eq_of_lt (lt_of_le_of_lt (Nat.div_le_self ..) s.width.isLt)
  have hrows : (s.capturedGeometry m).rows.toNat = s.height.toNat / s.tileH.toNat :=
    Nat.mod_eq_of_lt (lt_of_le_of_lt (Nat.div_le_self ..) s.height.isLt)
  have htb : (s.capturedGeometry m).tbytes.toNat = s.tileW.toNat / m.ppb * s.tileH.toNat :=
    Nat.mod_eq_of_lt (lt_of_le_of_lt hbytes (by decide))
  have hrow : 0 < s.tileW.toNat / m.ppb :=
    Nat.div_pos (Nat.le_of_dvd htw (Nat.dvd_of_mod_eq_zero hpix)) m.ppb_pos
  rw [TileTable.cells, hcols, hrows, htb]
  refine ⟨Nat.mul_pos hrow hth, ?_⟩
  calc s.width.toNat / s.tileW.toNat * (s.height.toNat / s.tileH.toNat) * (s.tileW.toNat / m.ppb * s.tileH.toNat)
      = s.width.toNat / s.tileW.toNat * (s.tileW.toNat / m.ppb) *
        (s.height.toNat / s.tileH.toNat * s.tileH.toNat) := by ring
    _ ≤ s.width.toNat / s.tileW.toNat * s.tileW.toNat / m.ppb * s.height.toNat :=
      Nat.mul_le_mul (Nat.mul_div_le_mul_div_assoc ..) (Nat.div_mul_le_self ..)
    _ ≤ s.width.toNat / m.ppb * s.height.toNat :=
      Nat.mul_le_mul_right _ (Nat.div_le_div_right (Nat.div_mul_le_self ..))
    _ ≤ Config.fbCap := hframe

/-- TANALYZE leaves a table that keeps the rules. -/
theorem tileTableOk_analyze {s s' : State} {m : GMode} {sl : Slot} (h : s.AnalyzeAccepts m sl) (b : Bool) :
    TileTableOk { s.capturedGeometry m with entries := (s'.scanTiles (s.capturedGeometry m) sl).1, ovf := b } := by
  obtain ⟨hbytes, hfits⟩ := h.captured
  obtain ⟨hcontents, hcounts⟩ := s'.scanTiles_ok (s.capturedGeometry m) sl
    ((Nat.le_mul_of_pos_right _ hbytes).trans hfits)
  exact tileTableOk_iff.2 ⟨hcontents, hcounts, nofun, nofun, fun _ => hbytes, hfits⟩

/-! ### TREDUCE: merging entries (45_tile_board.md R246) -/

/-- Merging into one survivor keeps the number of occurrences, while it fits a count. -/
theorem absorb_total (m : GMode) (thr : Nat) (e : TileEntry) (es : List TileEntry)
    (h : e.count.toNat + tileTotal es < 2 ^ 16) :
    (absorb m thr e es).1.count.toNat + tileTotal (absorb m thr e es).2 = e.count.toNat + tileTotal es := by
  induction es generalizing e with
  | nil => rfl
  | cons x xs ih =>
    rw [tileTotal_cons] at h ⊢
    unfold absorb
    split
    · have hadd : (e.count + x.count).toNat = e.count.toNat + x.count.toNat := by
        rw [BitVec.toNat_add]
        exact Nat.mod_eq_of_lt (by omega)
      rw [ih _ (by rw [hadd]; omega), hadd]
      omega
    · have := ih e (by omega)
      simp only [tileTotal_cons]
      omega

theorem absorb_sublist (m : GMode) (thr : Nat) (e : TileEntry) (es : List TileEntry) :
    (absorb m thr e es).2.Sublist es := by
  rw [(absorb_eq m thr e es).2]
  exact List.filter_sublist

theorem tileTotal_le_of_sublist {es fs : List TileEntry} (h : es.Sublist fs) : tileTotal es ≤ tileTotal fs :=
  (h.map _).sum_le_sum (by simp)

/-- The survivors' contents are contents of the old table, in its order. -/
theorem reduceTiles_contents (m : GMode) (thr n : Nat) (es : List TileEntry) :
    ((reduceTiles m thr n es).map TileEntry.content).Sublist (es.map TileEntry.content) := by
  induction n generalizing es with
  | zero => exact List.Sublist.refl _
  | succ n ih =>
    cases es with
    | nil => exact List.Sublist.refl _
    | cons e es =>
      rw [reduceTiles, List.map_cons, List.map_cons, (absorb_eq m thr e es).1]
      exact ((ih _).trans ((absorb_sublist m thr e es).map _)).cons_cons _

/-- No survivor's count falls below 1, and the number of occurrences stays, while it fits a count. -/
theorem CountsOk.reduceTiles {k : Nat} (m : GMode) (thr n : Nat) {es : List TileEntry} (h : CountsOk k es)
    (hk : k < 2 ^ 16) : CountsOk k (reduceTiles m thr n es) := by
  induction n generalizing k es with
  | zero => exact h
  | succ n ih =>
    cases es with
    | nil => exact h
    | cons e es =>
      obtain ⟨hpos, htotal⟩ := h
      obtain ⟨he, hes⟩ := List.forall_mem_cons.1 hpos
      rw [tileTotal_cons] at htotal
      have hsum := absorb_total m thr e es (by omega)
      have hsub := absorb_sublist m thr e es
      have hle := tileTotal_le_of_sublist hsub
      obtain ⟨hpos', htotal'⟩ := ih (k := tileTotal (absorb m thr e es).2)
        ⟨fun x hx => hes x (hsub.subset hx), le_rfl⟩ (by omega)
      rw [Machine.reduceTiles]
      exact ⟨List.forall_mem_cons.2 ⟨by omega, hpos'⟩, by rw [tileTotal_cons]; omega⟩

/-- TREDUCE keeps the rules of an unsorted valid table. -/
theorem TileTableOk.reduce {tb : TileTable} (h : TileTableOk tb) (hv : tb.valid = true) (hs : tb.sorted = false)
    (m : GMode) (thr n : Nat) : TileTableOk { tb with entries := reduceTiles m thr n tb.entries } := by
  obtain ⟨hcontents, hcounts, -, -, hbytes, hfits⟩ := tileTableOk_iff.1 h
  refine tileTableOk_iff.2 ⟨hcontents.sublist (reduceTiles_contents m thr n tb.entries),
    hcounts.reduceTiles m thr n (by decide), ?_, ?_, hbytes, hfits⟩
  · simp [hs]
  · simp [hv]

/-! ### TSORT (45_tile_board.md R247) -/

theorem sortTiles_pairwise (es : List TileEntry) :
    (sortTiles es).Pairwise fun e f => f.count.toNat ≤ e.count.toNat := by
  have htotal : Std.Total fun a b : TileEntry => b.count.toNat ≤ a.count.toNat := ⟨fun a b => Nat.le_total _ _⟩
  have htrans : IsTrans TileEntry fun a b => b.count.toNat ≤ a.count.toNat := ⟨fun a b c hab hbc => hbc.trans hab⟩
  exact List.pairwise_insertionSort _ es

theorem CountsOk.sortTiles {k : Nat} {es : List TileEntry} (h : CountsOk k es) : CountsOk k (sortTiles es) :=
  ⟨fun e he => h.pos e ((sortTiles_perm es).mem_iff.1 he),
    ((sortTiles_perm es).map fun e => e.count.toNat).sum_eq.trans_le h.total_le⟩

/-- TSORT keeps the rules of a valid table. -/
theorem TileTableOk.sort {tb : TileTable} (h : TileTableOk tb) (hv : tb.valid = true) :
    TileTableOk { tb with entries := sortTiles tb.entries, sorted := true } := by
  obtain ⟨hcontents, hcounts, -, -, hbytes, hfits⟩ := tileTableOk_iff.1 h
  refine tileTableOk_iff.2 ⟨hcontents.perm ((sortTiles_perm tb.entries).map _), hcounts.sortTiles,
    fun _ => sortTiles_pairwise tb.entries, ?_, hbytes, hfits⟩
  simp [hv]

/-! ### Every command and every step -/

/-- A command keeps the rules of the tile table. -/
theorem exec_tileTableOk {i : Instr} {s t : State} (h : exec i s = .next t) (hs : TileTableOk s.tb) :
    TileTableOk t.tb := by
  rcases exec_next h with ⟨e, rfl⟩ | hc
  · exact hs
  cases hc with
  | sreset | tclr => exact tileTableOk_empty
  | tanalyze sl m ha => exact tileTableOk_analyze ha _
  | treduce imm16 hv hu => exact TileTableOk.reduce hs hv hu _ _ _
  | tsort hv => exact TileTableOk.sort hs hv
  | plookup | tlookup => rwa [State.reportLookup_tb]
  | nop | pack | unpack | safwd | sainv | encodeFrame | decodeFrame | dclr | dadd | diff | diffi | marshal | unmarshal
  | tmap => exact hs

/-- Settles O59: a step keeps the tile table, empties it, or runs a command, which keeps its rules. -/
theorem stepKeepsTileTable : Obligations.StepKeepsTileTable := by
  intro s t hs h
  rcases step_tables h with ⟨-, htb⟩ | ⟨-, htb⟩ | ⟨i, s', -, htb, hx⟩
  · exact htb ▸ hs
  · exact htb ▸ tileTableOk_empty
  · exact exec_tileTableOk hx (htb ▸ hs)

end Sys2Proof.Machine
end

section
/-! PROOFS. The address maps (20_memory.md R82, 10_state.md R44) and what a write of a register leaves and a read of it
returns (10_state.md R27, R44, R45). -/

namespace Sys2Proof.Machine

/-! ### The address maps -/

/-- A register answers at its own address: no other register has it. -/
theorem locate_regAddr (r : Reg) : locate (regAddr r) = .reg r := by
  cases r with
  | PALLEN sl | FBLEN sl => cases sl <;> rfl
  | _ => rfl

theorem regAddr_lt (r : Reg) : regAddr r < 0x2B := by
  cases r with
  | PALLEN sl | FBLEN sl => cases sl <;> decide
  | _ => decide

@[simp] theorem toNat_regAddr (r : Reg) : (BitVec.ofNat 20 (regAddr r)).toNat = regAddr r :=
  Nat.mod_eq_of_lt ((regAddr_lt r).trans (by decide))

theorem windowBase_ge (m : Window) : 0x2B ≤ windowBase m := by
  cases m with
  | pal sl | img sl | fb sl => cases sl <;> decide
  | _ => decide

/-- In a list of intervals in rising order, the one that holds a number is the one that is found. -/
theorem find_interval {α : Type} (lo hi : α → Nat) {l : List α} (hl : l.Pairwise fun x y => hi x ≤ lo y) {x : α}
    (hx : x ∈ l) {n : Nat} (h1 : lo x ≤ n) (h2 : n < hi x) : l.find? (fun y => lo y ≤ n && n < hi y) = some x := by
  induction l with
  | nil => simp at hx
  | cons y l ih =>
    obtain ⟨hy, hl⟩ := List.pairwise_cons.1 hl
    rcases List.mem_cons.1 hx with rfl | hx
    · exact List.find?_cons_of_pos (by simp [h1, h2])
    · have := hy x hx
      rw [List.find?_cons_of_neg (by simp; omega)]
      exact ih hl hx

theorem mem_windowTable (m : Window) : m ∈ windowTable := by
  cases m with
  | pal sl | img sl | fb sl => cases sl <;> decide
  | _ => decide

/-- The windows do not overlap: each ends before the next one begins (20_memory.md R82). -/
theorem windowTable_pairwise : windowTable.Pairwise fun m n => windowBase m + m.size ≤ windowBase n := by decide

/-- An element of a window answers at the window's base plus its index. -/
theorem locate_windowBase (m : Window) {i : Nat} (h : i < m.size) : locate (windowBase m + i) = .elem m i := by
  have hreg : regTable.find? (fun r => regAddr r == windowBase m + i) = none := by
    refine List.find?_eq_none.2 fun r _ => ?_
    have := regAddr_lt r
    have := windowBase_ge m
    simp
    omega
  have hwin := find_interval windowBase (fun w => windowBase w + w.size) windowTable_pairwise (mem_windowTable m)
    (Nat.le_add_right _ i) (Nat.add_lt_add_left h _)
  simp only [locate, hreg, hwin, Nat.add_sub_cancel_left]

theorem windowBase_add_size_le (m : Window) : windowBase m + m.size ≤ 2 ^ 20 := by
  cases m with
  | pal sl | img sl | fb sl => cases sl <;> decide
  | _ => decide

/-- Settles O6: the model's two maps are the listed ones, and `locate` inverts them. -/
theorem addressMapPlaces : Obligations.AddressMapPlaces := by
  refine ⟨fun r => ⟨regAddr r, ?_, rfl, locate_regAddr r⟩,
    fun m => ⟨windowBase m, m.size, ?_, rfl, rfl, windowBase_add_size_le m, fun i hi => locate_windowBase m hi⟩⟩
  · cases r with
    | PALLEN sl | FBLEN sl => cases sl <;> decide
    | _ => decide
  · cases m with
    | pal sl | img sl | fb sl => cases sl <;> decide
    | _ => decide

/-! ### Register accesses -/

theorem hostRead_reg (r : Reg) (s : State) :
    hostRead (BitVec.ofNat 20 (regAddr r)) s = .next { s with busData := some (s.readReg r) } := by
  simp only [hostRead, toNat_regAddr, locate_regAddr]

theorem hostWrite_cmd (w : Word) (s : State) : hostWrite 0x00000 w s = runCommand w { s with busData := none } := rfl

theorem hostWrite_reg {r : Reg} (h : r ≠ .CMD) (v : Word) (s : State) :
    hostWrite (BitVec.ofNat 20 (regAddr r)) v s = .next (State.writeReg { s with busData := none } r v) := by
  unfold hostWrite
  rw [toNat_regAddr, locate_regAddr]
  cases r with
  | CMD => exact absurd rfl h
  | _ => rfl

/-- A field of `n` bits, read back as a word. -/
theorem zext32_setWidth {n : Nat} (v : Word) : zext32 (v.setWidth n) = BitVec.ofNat 32 (v.toNat % 2 ^ n) := by
  apply BitVec.eq_of_toNat_eq
  rw [BitVec.toNat_setWidth, BitVec.toNat_setWidth, BitVec.toNat_ofNat]

theorem eq_ofNat_mod (v : Word) : v = BitVec.ofNat 32 (v.toNat % 2 ^ 32) := by
  apply BitVec.eq_of_toNat_eq
  rw [BitVec.toNat_ofNat, Nat.mod_mod, Nat.mod_eq_of_lt v.isLt]

/-- A read-write register holds the low bits of what was written to it (10_state.md R45). -/
theorem readReg_writeReg {r : Reg} {n : Nat} (h : rwWidth r = some n) (v : Word) (s : State) :
    (s.writeReg r v).readReg r = BitVec.ofNat 32 (v.toNat % 2 ^ n) := by
  cases r with
  | ARG0 | ARG1 | NFCNT | AOORCNT | TOVFCNT =>
    obtain rfl := Option.some.inj h
    exact eq_ofNat_mod v
  | WIDTH | HEIGHT | LINEWIDTH | ORIGIN | PLACEX | PLACEY | TILEW | TILEH | DT_ASEL | MODE | CTRL | COLORS | OUTLEN
  | DT_SEL | TB_SEL =>
    obtain rfl := Option.some.inj h
    exact zext32_setWidth v
  | PALLEN sl | FBLEN sl =>
    obtain rfl := Option.some.inj h
    cases sl <;> exact zext32_setWidth v
  | _ => simp [rwWidth] at h

theorem ne_cmd_of_rwWidth {r : Reg} {n : Nat} (h : rwWidth r = some n) : r ≠ .CMD := by
  rintro rfl
  simp [rwWidth] at h

theorem extractLsb'_zero_eq_setWidth {n : Nat} (v : Word) : v.extractLsb' 0 n = v.setWidth n := by
  apply BitVec.eq_of_toNat_eq
  rw [BitVec.extractLsb'_toNat, BitVec.toNat_setWidth, Nat.shiftRight_zero]

/-- Settles O9: by the address of each register, what `writeReg` leaves in its field. -/
theorem registerStoresItsField : Obligations.RegisterStoresItsField := by
  refine ⟨fun r n v s h => ⟨_, hostWrite_reg (ne_cmd_of_rwWidth h) v s, ?_⟩, fun v s => ?_⟩
  · rw [hostRead_reg, readReg_writeReg h]
  · have write (r : Reg) (h : r ≠ .CMD) := hostWrite_reg h v s
    simp only [extractLsb'_zero_eq_setWidth]
    exact ⟨write .ARG0 nofun, write .ARG1 nofun, write .MODE nofun, write .WIDTH nofun, write .HEIGHT nofun,
      write .COLORS nofun, write .CTRL nofun, write .LINEWIDTH nofun, write .ORIGIN nofun, write .PLACEX nofun,
      write .PLACEY nofun, write .TILEW nofun, write .TILEH nofun, write (.PALLEN .a) nofun, write (.PALLEN .b) nofun,
      write (.FBLEN .a) nofun, write (.FBLEN .b) nofun, write .OUTLEN nofun, write .NFCNT nofun, write .AOORCNT nofun,
      write .TOVFCNT nofun, write .DT_SEL nofun, write .DT_ASEL nofun, write .TB_SEL nofun⟩

/-- Settles O10: a write of FLAGS masks it with the complement of the written bits. -/
theorem flagsAreWriteOneToClear : Obligations.FlagsAreWriteOneToClear := by
  intro v s
  refine ⟨_, hostWrite_reg (r := .FLAGS) nofun v s, rfl, fun k hk => ?_⟩
  simp [State.writeReg, hk]

end Sys2Proof.Machine
end

section
/-! PROOFS. A word that encodes a command decodes to it (30_encoding.md R110 to R113), and a step runs the command whose
word the host writes to CMD (10_state.md R23). -/

namespace Sys2Proof.Machine

/-! ### Decoding the word of a command -/

theorem opField_encode (i : Instr) : opField (encode i) = i.mnemonic.opcode :=
  BitVec.extractLsb'_append_eq_left (a := i.mnemonic.opcode) (b := operandBits i)

theorem operandField_encode (i : Instr) : operandField (encode i) = operandBits i :=
  (BitVec.extractLsb'_append_eq_of_add_le (xhi := i.mnemonic.opcode) (xlo := operandBits i) le_rfl).trans
    BitVec.extractLsb'_eq_self

/-- No two rows of the opcode table have the same opcode. -/
theorem find_opcodeTable (m : Mnemonic) : opcodeTable.find? (fun n => n.opcode == m.opcode) = some m := by
  cases m <;> rfl

/-- The word of a command has 0 where its format requires it (30_encoding.md R114). -/
theorem operandBits_and_zeroBits (i : Instr) : operandBits i &&& i.mnemonic.format.zeroBits = 0 := by
  cases i with
  | plookup sl | encodeFrame sl | decodeFrame sl | tanalyze sl | tlookup sl | tmap sl => cases sl <;> rfl
  | dadd val8 addr16 => exact BitVec.and_zero
  | treduce imm16 =>
    calc (0#8 ++ imm16) &&& (0xFF#8 ++ 0#16) = (0#8 &&& 0xFF#8) ++ (imm16 &&& 0#16) := BitVec.and_append
      _ = 0 := by rw [BitVec.and_zero]; rfl
  | _ => rfl

/-- The operand fields of a command's word are its operands (30_encoding.md R112). -/
theorem toInstr_encode (i : Instr) : i.mnemonic.toInstr (encode i) = i := by
  cases i with
  | plookup sl | encodeFrame sl | decodeFrame sl | tanalyze sl | tlookup sl | tmap sl => cases sl <;> rfl
  | dadd val8 addr16 =>
    have hv : val8Field (encode (.dadd val8 addr16)) = val8 := by
      change (0x51#8 ++ (val8 ++ addr16)).extractLsb' 16 8 = val8
      rw [BitVec.extractLsb'_append_eq_of_add_le (by decide), BitVec.extractLsb'_append_eq_left]
    have ha : imm16Field (encode (.dadd val8 addr16)) = addr16 := by
      change (0x51#8 ++ (val8 ++ addr16)).extractLsb' 0 16 = addr16
      rw [BitVec.extractLsb'_append_eq_of_add_le (by decide), BitVec.extractLsb'_append_eq_of_add_le (by decide),
        BitVec.extractLsb'_eq_self]
    exact congrArg₂ Instr.dadd hv ha
  | treduce imm16 =>
    have hi : imm16Field (encode (.treduce imm16)) = imm16 := by
      change (0x62#8 ++ (0#8 ++ imm16)).extractLsb' 0 16 = imm16
      rw [BitVec.extractLsb'_append_eq_of_add_le (by decide), BitVec.extractLsb'_append_eq_of_add_le (by decide),
        BitVec.extractLsb'_eq_self]
    exact congrArg Instr.treduce hi
  | _ => rfl

/-- The decoder gives a command back from its word. -/
theorem decode_encode (i : Instr) : decode (encode i) = .ok i := by
  simp only [decode, opField_encode, find_opcodeTable, operandField_encode, operandBits_and_zeroBits, if_true,
    toInstr_encode]

/-! ### The step -/

theorem step_of_pending {s : State} {op : HostOp} {rest : List HostOp} (h : s.pending = op :: rest) :
    step s = runOp op { s with pending := rest } := by
  simp only [step, stepHost, h]

theorem step_of_idle {s : State} (h : s.pending = []) : step s = .next s := by
  simp only [step, stepHost, h]

theorem runOp_read {s : State} (h : s.inReset = false) (wa : BusAddr) : runOp (.read wa) s = hostRead wa s := by
  simp [runOp, h]

theorem runOp_write {s : State} (h : s.inReset = false) (wa : BusAddr) (v : Word) :
    runOp (.write wa v) s = hostWrite wa v s := by
  simp [runOp, h]

theorem runCommand_of_decode {w : Word} {i : Instr} (h : decode w = .ok i) (s : State) : runCommand w s = exec i s := by
  simp only [runCommand, h]

/-- A write of a command's word to CMD is that command. -/
theorem step_of_command {s : State} {w : Word} {i : Instr} {rest : List HostOp} (hr : s.inReset = false)
    (hp : s.pending = .write 0x00000 w :: rest) (hd : decode w = .ok i) :
    step s = exec i { s with pending := rest, busData := none } := by
  rw [step_of_pending hp, runOp_write (by exact hr), hostWrite_cmd, runCommand_of_decode hd]

/-- Settles O4: `withFetchWord` puts the write of a command's word first, so its step is `step_of_command`. -/
theorem stepRunsDecodedCommand : Obligations.StepRunsDecodedCommand := by
  refine ⟨fun s op rest h => step_of_pending h, fun s h => step_of_idle h,
    fun s wa v h => ⟨runOp_read h wa, runOp_write h wa v⟩, fun s w => hostWrite_cmd w s,
    fun s w i rest hr hp hd => step_of_command hr hp hd, fun s i => ?_⟩
  have hp : (s.withFetchWord 32 (encode i).toNat).pending = .write 0x00000 (encode i) :: s.pending :=
    congrArg (fun w => HostOp.write 0x00000 w :: s.pending) (eq_ofNat_mod (encode i)).symm
  exact step_of_command rfl hp (decode_encode i)

end Sys2Proof.Machine
end

section
/-! PROOFS. What the read-out registers show of the two tables (10_state.md R41, R42, R53), the identification registers
(R43), and the state after reset (R60). -/

namespace Sys2Proof.Machine

theorem toNat_zext32 {n : Nat} (v : BitVec n) (hn : n ≤ 32) : (zext32 v).toNat = v.toNat := by
  rw [BitVec.toNat_setWidth]
  exact Nat.mod_eq_of_lt (lt_of_lt_of_le v.isLt (Nat.pow_le_pow_right (by decide) hn))

/-- A number read out in a field it fits. -/
theorem toNat_zext32_ofNat {n k : Nat} (hk : k < 2 ^ n) (hn : n ≤ 32) : (zext32 (BitVec.ofNat n k)).toNat = k := by
  rw [toNat_zext32 _ hn, BitVec.toNat_ofNat, Nat.mod_eq_of_lt hk]

/-! ### The delta table -/

/-- There is at most one item for each byte value (44_delta_engine.md R214). -/
theorem DeltaTableOk.length_le {dt : List DtItem} (h : DeltaTableOk dt) : dt.length ≤ 256 := by
  obtain ⟨-, hnodup, -⟩ := h
  calc dt.length = (dt.map DtItem.byte).length := (List.length_map DtItem.byte).symm
    _ ≤ Fintype.card Byte := hnodup.length_le_card
    _ = 256 := FinEnum.card_eq_fintypeCard.symm.trans (FinEnum.card_bitVec 8)

section
variable {s : State}

theorem State.dtItemReg_of_some {it : DtItem} (h : s.dt[s.dtSel.toNat]? = some it) :
    s.dtItemReg = it.count ++ (0#8 ++ it.byte) := by simp only [State.dtItemReg, h]

theorem State.dtItemReg_of_none (h : s.dt[s.dtSel.toNat]? = none) : s.dtItemReg = 0 := by
  simp only [State.dtItemReg, h]

theorem State.dtAddrReg_of_some {it : DtItem} (h : s.dt[s.dtSel.toNat]? = some it) :
    s.dtAddrReg = if s.dtASel.toNat < it.count.toNat then it.addrs.getD s.dtASel.toNat 0 else 0 := by
  simp only [State.dtAddrReg, h]

theorem State.dtAddrReg_of_none (h : s.dt[s.dtSel.toNat]? = none) : s.dtAddrReg = 0 := by
  simp only [State.dtAddrReg, h]

end

/-- DT_ITEM has the byte in bits 7:0, zeros in 15:8 and the count in 31:16 (10_state.md R41). -/
theorem dtItem_fields (c : BitVec 16) (b : Byte) :
    (c ++ (0#8 ++ b) : Word).extractLsb' 0 8 = b ∧ (c ++ (0#8 ++ b) : Word).extractLsb' 8 8 = 0 ∧
    (c ++ (0#8 ++ b) : Word).extractLsb' 16 16 = c := by
  refine ⟨?_, ?_, BitVec.extractLsb'_append_eq_left⟩
  · rw [BitVec.extractLsb'_append_eq_of_add_le (by decide), BitVec.extractLsb'_append_eq_of_add_le (by decide),
      BitVec.extractLsb'_eq_self]
  · rw [BitVec.extractLsb'_append_eq_of_add_le (by decide), BitVec.extractLsb'_append_eq_left]
    rfl

/-! ### The tile table -/

/-- A bit of the low part of a word. -/
theorem getLsbD_append_of_lt {n k i : Nat} (x : BitVec n) (y : BitVec k) (h : i < k) :
    (x ++ y).getLsbD i = y.getLsbD i := by rw [BitVec.getLsbD_append, if_pos h]

/-- A single bit put above a low part. -/
theorem getLsbD_ofBool_append {k : Nat} (b : Bool) (y : BitVec k) : (BitVec.ofBool b ++ y).getLsbD k = b := by
  rw [BitVec.getLsbD_append, if_neg (lt_irrefl k), Nat.sub_self]
  cases b <;> rfl

/-- The fields of TB_INFO (10_state.md R42). -/
theorem TileTable.info_fields (tb : TileTable) :
    tb.info.extractLsb' 0 2 = modeBits tb.mode ∧ tb.info.extractLsb' 2 6 = 0 ∧ tb.info.getLsbD 8 = tb.valid ∧
    tb.info.getLsbD 9 = tb.sorted ∧ tb.info.getLsbD 10 = tb.ovf ∧ tb.info.extractLsb' 11 5 = 0 ∧
    tb.info.extractLsb' 16 16 = tb.tbytes := by
  unfold TileTable.info
  refine ⟨?mode, ?gap, ?valid, ?sorted, ?ovf, ?gap', BitVec.extractLsb'_append_eq_left⟩
  case mode =>
    iterate 6 rw [BitVec.extractLsb'_append_eq_of_add_le (by decide)]
    exact BitVec.extractLsb'_eq_self
  case gap =>
    iterate 5 rw [BitVec.extractLsb'_append_eq_of_add_le (by decide)]
    exact BitVec.extractLsb'_append_eq_left
  case valid =>
    iterate 4 rw [getLsbD_append_of_lt _ _ (by decide)]
    exact getLsbD_ofBool_append _ _
  case sorted =>
    iterate 3 rw [getLsbD_append_of_lt _ _ (by decide)]
    exact getLsbD_ofBool_append _ _
  case ovf =>
    iterate 2 rw [getLsbD_append_of_lt _ _ (by decide)]
    exact getLsbD_ofBool_append _ _
  case gap' =>
    rw [BitVec.extractLsb'_append_eq_of_add_le (by decide)]
    exact BitVec.extractLsb'_append_eq_left

theorem toNat_modeBits (m : GMode) : (modeBits m).toNat = (match m with
    | .m0 => 0
    | .m1 => 1
    | .m2 => 2) := by cases m <;> rfl

theorem State.tbCountReg_of_some {s : State} {e : TileEntry} (h : s.tb.entries[s.tbSel.toNat]? = some e) :
    s.tbCountReg = e.count := by simp only [State.tbCountReg, h]

theorem State.tbCountReg_of_none {s : State} (h : s.tb.entries[s.tbSel.toNat]? = none) : s.tbCountReg = 0 := by
  simp only [State.tbCountReg, h]

/-- Inside the valid range the TILE window shows the content of the entry (10_state.md R53). -/
theorem State.tileAt_of_entry {s : State} {t j : Nat} {e : TileEntry} (h : s.tb.entries[t]? = some e)
    (hj : j < s.tb.tbytes.toNat) (hl : e.content.length = s.tb.tbytes.toNat) :
    e.content[j]? = some (s.tileAt t j) := by
  have hj' : j < e.content.length := hl ▸ hj
  simp [State.tileAt, h, hj, hj']

/-! ### The statements -/

/-- The read-out of the delta table. -/
theorem State.deltaReadOut {s : State} (h : DeltaTableOk s.dt) :
    (s.readReg .DT_NITEMS).toNat = s.dt.length ∧ (s.readReg .DT_NADDR).toNat = dtTotal s.dt ∧
    (∀ it, s.dt[s.dtSel.toNat]? = some it →
      ((s.readReg .DT_ITEM).extractLsb' 0 8) = it.byte ∧ ((s.readReg .DT_ITEM).extractLsb' 8 8) = 0 ∧
      ((s.readReg .DT_ITEM).extractLsb' 16 16) = it.count ∧
      (∀ a, it.addrs[s.dtASel.toNat]? = some a → s.readReg .DT_ADDR = zext32 a) ∧
      (it.count.toNat ≤ s.dtASel.toNat → s.readReg .DT_ADDR = 0)) ∧
    (s.dt.length ≤ s.dtSel.toNat → s.readReg .DT_ITEM = 0 ∧ s.readReg .DT_ADDR = 0) := by
  have hlen := h.length_le
  obtain ⟨hitem, -, htotal⟩ := h
  refine ⟨toNat_zext32_ofNat (by omega) (by decide), toNat_zext32_ofNat (lt_of_le_of_lt htotal (by decide)) (by decide),
    fun it hit => ?_, fun hsel => ?_⟩
  · obtain ⟨hbyte, hgap, hcount⟩ := dtItem_fields it.count it.byte
    obtain ⟨hc, -⟩ := hitem it (List.mem_of_getElem? hit)
    simp only [State.readReg, State.dtItemReg_of_some hit, State.dtAddrReg_of_some hit]
    refine ⟨hbyte, hgap, hcount, fun a ha => ?_, fun hsel => ?_⟩
    · obtain ⟨hlt, -⟩ := List.getElem?_eq_some_iff.1 ha
      rw [if_pos (by omega), List.getD_eq_getElem?_getD, ha, Option.getD_some]
    · rw [if_neg (by omega)]
      rfl
  · have hnone := List.getElem?_eq_none hsel
    exact ⟨State.dtItemReg_of_none hnone, congrArg zext32 (State.dtAddrReg_of_none hnone)⟩

/-- Settles O11: under the tables' rules no number read out exceeds its field, and an entry has its tb bytes. -/
theorem tableReadOut : Obligations.TableReadOut := by
  refine ⟨fun s h => s.deltaReadOut h, fun s h => ?_⟩
  obtain ⟨hlen, -, hentry, -⟩ := h
  obtain ⟨hmode, hgap, hvalid, hsorted, hovf, hgap', hbytes⟩ := s.tb.info_fields
  exact ⟨toNat_zext32_ofNat (lt_of_le_of_lt hlen (by decide)) (by decide),
    (BitVec.extractLsb'_append_eq_of_add_le le_rfl).trans BitVec.extractLsb'_eq_self, BitVec.extractLsb'_append_eq_left,
    (BitVec.extractLsb'_append_eq_of_add_le le_rfl).trans BitVec.extractLsb'_eq_self, BitVec.extractLsb'_append_eq_left,
    (congrArg BitVec.toNat hmode).trans (toNat_modeBits _), hgap, hvalid, hsorted, hovf, hgap', hbytes,
    fun e he => congrArg zext32 (State.tbCountReg_of_some he),
    fun hsel => congrArg zext32 (State.tbCountReg_of_none (List.getElem?_eq_none hsel)),
    fun t j e he hj => State.tileAt_of_entry he hj (hentry e (List.mem_of_getElem? he)).2⟩

/-- Settles O12: PARAMS1 is one constant for each value of SA_BINDING. -/
theorem identificationConstants : Obligations.IdentificationConstants := by
  intro s
  refine ⟨rfl, rfl, ?_⟩
  simp only [State.readReg, State.params1]
  cases s.binding <;> rfl

/-- Settles O13: no memory element is written at reset, so each read is the free value of epoch 0. -/
theorem resetTable : Obligations.ResetTable := by
  refine ⟨fun r hid h0 h1 => ?_, rfl, rfl, fun sl i => ?_, fun i => ⟨rfl, rfl⟩, fun t j => rfl⟩
  · cases r with
    | ID => exact absurd rfl hid
    | PARAMS0 => exact absurd rfl h0
    | PARAMS1 => exact absurd rfl h1
    | PALLEN sl | FBLEN sl => cases sl <;> rfl
    | _ => rfl
  · cases sl <;> exact ⟨rfl, rfl, rfl⟩

/-- Settles O57: empty memories are canonical, both tables are empty, and ERR is 0. -/
theorem resetKeepsTheRules : Obligations.ResetKeepsTheRules := by
  refine ⟨⟨fun sl => ?_, rfl, rfl⟩, ⟨fun sl => ?_, nofun, nofun⟩, deltaTableOk_nil, tileTableOk_empty, .inr rfl⟩
  · cases sl <;> exact ⟨rfl, rfl, rfl⟩
  · cases sl <;> exact ⟨nofun, nofun, nofun⟩

end Sys2Proof.Machine
end

section
/-! PROOFS. Where each index bit lies in a packed byte (41_pixel_packer.md R150 to R153), for every bijective table of
bit positions and for the configured one. -/

namespace Sys2Proof.Machine

section
variable {T : PosTable} {m : GMode}

theorem perm_planes_of_bijective (h : T.Bijective) (m : GMode) :
    ((planes m).map fun kj => T m kj.1 kj.2).Perm (List.range 8) := by
  have hp : ((planes m).map fun kj => T m kj.1 kj.2) =
      (List.range m.ppb).flatMap fun k => (List.range m.bpp).map (T m k) := by
    simp [planes, List.map_flatMap, Function.comp_def]
  exact hp ▸ h m

/-- Every pair of pixel and index bit has a bit position of its own. -/
theorem planes_injOn_of_bijective (h : T.Bijective) {p q : Nat × Nat} (hp : p ∈ planes m) (hq : q ∈ planes m)
    (he : T m p.1 p.2 = T m q.1 q.2) : p = q :=
  List.inj_on_of_nodup_map ((perm_planes_of_bijective h m).nodup_iff.2 List.nodup_range) hp hq he

theorem pos_lt_of_bijective (h : T.Bijective) {p : Nat × Nat} (hp : p ∈ planes m) : T m p.1 p.2 < 8 :=
  List.mem_range.1 ((perm_planes_of_bijective h m).mem_iff.1 (List.mem_map_of_mem hp))

/-- A packed byte holds bit `j` of the index of pixel `k` at the position of the table, as no other pair is put there. -/
theorem packBy_getLsbD_pos (h : T.Bijective) (p : List Nat) {k j : Nat} (hk : k < m.ppb) (hj : j < m.bpp) :
    (packBy T m p).getLsbD (T m k j) = (p.getD k 0).testBit j := by
  have hkj : (k, j) ∈ planes m := mem_planes.2 ⟨hk, hj⟩
  rw [packBy_getLsbD T m p (pos_lt_of_bijective h hkj), Bool.eq_iff_iff, List.any_eq_true]
  constructor
  · rintro ⟨q, hq, hbit⟩
    obtain ⟨hpos, hbit⟩ := Bool.and_eq_true_iff.1 hbit
    obtain rfl := planes_injOn_of_bijective h hq hkj (of_decide_eq_true hpos)
    exact hbit
  · intro hbit
    exact ⟨(k, j), hkj, by simpa using hbit⟩

end

theorem length_unpackBy (T : PosTable) (m : GMode) (b : Byte) : (unpackBy T m b).length = m.ppb := by simp [unpackBy]

theorem getElem?_unpackBy (T : PosTable) {m : GMode} (b : Byte) {k : Nat} (hk : k < m.ppb) :
    (unpackBy T m b)[k]? = some (unpackAtBy T m b k) := by simp [unpackBy, hk]

/-- The configured table is the list of base positions that R151 gives. -/
theorem pos_eq {m : GMode} (k : Nat) {j : Nat} (hj : j < m.bpp) : [7, 3, 5, 1].getD j 0 - k = Config.pos m k j := by
  have h4 : j < 4 := hj.trans_le (by cases m <;> decide)
  unfold Config.pos
  interval_cases j <;> rfl

/-- MODE selects the three modes in their order, and 3 selects none (10_state.md R28). -/
theorem State.gmode_of_mode (s : State) : (s.mode = 0 → s.gmode? = some .m0) ∧ (s.mode = 1 → s.gmode? = some .m1) ∧
    (s.mode = 2 → s.gmode? = some .m2) ∧ (s.mode = 3 → s.gmode? = none) := by
  unfold State.gmode?
  refine ⟨?_, ?_, ?_, ?_⟩ <;> (intro h; rw [h]; rfl)

/-- Settles O23: the configured table is bijective, so each position is that of one pair. -/
theorem packedBitPositions : Obligations.PackedBitPositions := by
  refine ⟨State.gmode_of_mode, ⟨rfl, rfl, rfl⟩, ⟨rfl, rfl, rfl⟩, ⟨rfl, rfl, rfl⟩, fun m k hk => ⟨fun p j hj => ?_,
    fun b => ⟨length_unpackBy _ m b, getElem?_unpackBy _ b hk, unpackAtBy_lt _ m b k, fun j hj => ?_⟩⟩⟩
  · rw [pos_eq k hj]
    exact packBy_getLsbD_pos pos_bijective p hk hj
  · rw [pos_eq k hj]
    exact unpackAtBy_testBit _ m b k hj

end Sys2Proof.Machine
end

section
/-! PROOFS. What a step can do, said once: one input of the host changes its own side of the state and then has one of
six effects (00_scope.md R13; 20_memory.md R83, R88; 70_reset_and_hazards.md R320); and a rule about the local memories
holds after a step when it holds of unwritten memory and is kept by every write of an element and by every command. -/

namespace Sys2Proof.Machine

/-! ### The effects of a step -/

/-- A word address that names an element of a window names one inside it. -/
theorem lt_size_of_locate {n : Nat} {m : Window} {i : Nat} (h : locate n = .elem m i) : i < m.size := by
  unfold locate at h
  split at h
  · simp at h
  · split at h
    · rename_i w hw
      have hin := List.find?_some hw
      obtain ⟨rfl, rfl⟩ := Place.elem.inj h
      simp only [Bool.and_eq_true, decide_eq_true_eq] at hin
      omega
    · simp at h

/-- What one input of the host can do to the state, its own side of it aside. -/
inductive HostEffect (s : State) : State → Prop
  | keep : HostEffect s s
  | assertReset : HostEffect s { s with inReset := true }
  | releaseReset : HostEffect s s.hardReset
  | register (r : Reg) (v : Word) : HostEffect s (s.writeReg r v)
  | element (m : Window) (i : Nat) (v : Word) (hi : i < m.size) : HostEffect s (s.writeElem i v m)
  | command (i : Instr) (t : State) (h : exec i s = .next t) : HostEffect s t
  | illegal (w : Word) : HostEffect s (s.raise .illegalCommand w)

theorem hostEffect_resetLine (a : Bool) (s : State) : HostEffect s (resetLine a s) := by
  unfold resetLine
  split
  · exact .assertReset
  · split
    · exact .releaseReset
    · exact .keep

theorem hostEffect_runCommand {w : Word} {s t : State} (h : runCommand w s = .next t) : HostEffect s t := by
  rcases runCommand_cases w s with ⟨i, -, hi⟩ | ⟨e, -, hi⟩ <;> rw [hi] at h
  · exact .command i t h
  · exact Host.Outcome.next.inj h ▸ .illegal w

/-- A step updates the host's side of the state, `pending` and `busData`, and has one effect on it. -/
theorem step_next {s t : State} (h : step s = .next t) :
    ∃ ops d, HostEffect { s with pending := ops, busData := d } t := by
  rcases step_cases s with ⟨-, hs⟩ | ⟨op, rest, -, hs⟩ <;> rw [hs] at h
  · exact ⟨s.pending, s.busData, Host.Outcome.next.inj h ▸ .keep⟩
  rcases runOp_next h with ⟨a, -, rfl⟩ | ⟨wa, -, -, hr⟩ | ⟨wa, v, -, -, hw⟩
  · exact ⟨rest, s.busData, hostEffect_resetLine a _⟩
  · obtain ⟨d, rfl⟩ := hostRead_next hr
    exact ⟨rest, some d, .keep⟩
  refine ⟨rest, none, ?_⟩
  rcases hostWrite_next hw with ⟨-, hc⟩ | ⟨r, -, -, rfl⟩ | ⟨m, i, hl, rfl⟩
  · exact hostEffect_runCommand hc
  · exact .register r v
  · exact .element m i v (lt_size_of_locate hl)

/-- The build parameter is never written (log entry 7). -/
theorem HostEffect.binding {s t : State} (h : HostEffect s t) : t.binding = s.binding := by
  cases h with
  | keep | assertReset | releaseReset | illegal => rfl
  | register r v => cases r <;> rfl
  | element m i v => cases m <;> rfl
  | command i t h =>
    obtain ⟨u, rfl⟩ := exec_frame h
    exact commandFrame_binding i s u

/-! ### Rules about every local memory -/

/-- A rule about memories, seen as windows, holds of each of the local memories. -/
structure State.EachMemory (s : State) (P : (w : Nat) → Window → Memory w → Prop) : Prop where
  pal : ∀ sl, P 32 (.pal sl) (s.pal.get sl)
  img : ∀ sl, P 32 (.img sl) (s.img.get sl)
  fb : ∀ sl, P 8 (.fb sl) (s.fb.get sl)
  out : P 8 .out s.out
  map : P 8 .map s.map

/-- A rule holds of both slots when it holds of the slot that is replaced and held of the other one. -/
theorem PerSlot.forall_get_set {α : Type} {P : Slot → α → Prop} {p : PerSlot α} (h : ∀ sl, P sl (p.get sl))
    {sl : Slot} {x : α} (hx : P sl x) (sl' : Slot) : P sl' ((p.set sl x).get sl') := by
  by_cases hsl : sl = sl'
  · subst hsl
    rwa [PerSlot.get_set_self]
  · rw [PerSlot.get_set_ne p hsl]
    exact h sl'

section
variable {P : (w : Nat) → Window → Memory w → Prop} {s t : State}

theorem State.EachMemory.writeReg (h : s.EachMemory P) (r : Reg) (v : Word) : (s.writeReg r v).EachMemory P := by
  cases r <;> exact { h with }

theorem State.EachMemory.reportLookup (h : s.EachMemory P) (r : Option Nat) : (s.reportLookup r).EachMemory P := by
  cases r <;> exact { h with }

/-- Writing an element keeps a rule that a write into its window keeps. -/
theorem State.EachMemory.writeElem (h : s.EachMemory P) {m : Window} {i : Nat}
    (hset : ∀ {w : Nat} (mem : Memory w) (x : BitVec w), P w m mem → P w m (mem.set i x)) (v : Word) :
    (s.writeElem i v m).EachMemory P := by
  cases m with
  | pal sl => exact { h with pal := PerSlot.forall_get_set h.pal (hset _ v (h.pal sl)) }
  | img sl => exact { h with img := PerSlot.forall_get_set h.img (hset _ v (h.img sl)) }
  | fb sl => exact { h with fb := PerSlot.forall_get_set h.fb (hset _ _ (h.fb sl)) }
  | out => exact { h with out := hset _ _ h.out }
  | map => exact { h with map := hset _ _ h.map }
  | tile => exact h

/-- Only ENCODE, DECODE, MARSHAL and TMAP write a local memory, each its own: a command keeps a rule that what these
four leave there keeps (10_state.md R46 to R49, R52). -/
theorem Completes.eachMemory {i : Instr} (h : Completes s i t) (hs : s.EachMemory P)
    (hencode : ∀ m sl, s.EncodeAccepts m sl → P 8 (.fb sl) (s.encodedFrame m sl))
    (hdecode : ∀ m sl, s.DecodeAccepts m sl →
      P 32 (.img sl) ((s.img.get sl).fill ((s.frameIndices m sl).map (s.indexColour sl))))
    (hmarshal : P 8 .out (s.out.fill (streamBytes (dtRecords s.dt))))
    (htmap : ∀ sl, s.CatalogueAccepts sl →
      P 8 .map (s.map.fill ((s.cellIndices sl).map fun r => BitVec.ofNat 8 (r.getD 0)))) :
    t.EachMemory P := by
  cases h with
  | encodeFrame sl m ha => exact { hs with fb := PerSlot.forall_get_set hs.fb (hencode m sl ha) }
  | decodeFrame sl m ha => exact { hs with img := PerSlot.forall_get_set hs.img (hdecode m sl ha) }
  | marshal => exact { hs with out := hmarshal }
  | tmap sl ha => exact { hs with map := htmap sl ha }
  | plookup | tlookup => exact State.EachMemory.reportLookup (s := s.clearReport) { hs with } _
  | nop | sreset | pack | unpack | safwd | sainv | dclr | dadd | diff | diffi | unmarshal | tclr | tanalyze | treduce
  | tsort => exact { hs with }

/-- A rule is kept by every effect of a step when it holds of unwritten memory and is kept by every write of an element
inside its window and by every command that completes. -/
theorem HostEffect.eachMemory (h : HostEffect s t) (hs : s.EachMemory P) (hnil : ∀ w win, P w win [])
    (hset : ∀ {w : Nat} (win : Window) (mem : Memory w) (i : Nat) (x : BitVec w), i < win.size →
      P w win mem → P w win (mem.set i x))
    (hcommand : ∀ i t, Completes s i t → t.EachMemory P) : t.EachMemory P := by
  cases h with
  | keep => exact hs
  | assertReset | illegal => exact { hs with }
  | releaseReset =>
    exact ⟨fun sl => by cases sl <;> exact hnil .., fun sl => by cases sl <;> exact hnil ..,
      fun sl => by cases sl <;> exact hnil .., hnil .., hnil ..⟩
  | register r v => exact hs.writeReg r v
  | element m i v hi => exact hs.writeElem (fun mem x => hset m mem i x hi) v
  | command i t h =>
    rcases exec_next h with ⟨e, rfl⟩ | hc
    · exact { hs with }
    · exact hcommand i t hc

end

/-! ### The canonical form -/

/-- The canonical form, as a rule about memories. -/
abbrev CanonicalMemory (w : Nat) (_ : Window) (m : Memory w) : Prop := m.wf = true

theorem State.memoriesCanonical_iff (s : State) : s.MemoriesCanonical ↔ s.EachMemory CanonicalMemory := by
  constructor
  · rintro ⟨hslot, hout, hmap⟩
    exact ⟨fun sl => (hslot sl).1, fun sl => (hslot sl).2.1, fun sl => (hslot sl).2.2, hout, hmap⟩
  · rintro ⟨hpal, himg, hfb, hout, hmap⟩
    exact ⟨fun sl => ⟨hpal sl, himg sl, hfb sl⟩, hout, hmap⟩

theorem Completes.canonical {s t : State} {i : Instr} (h : Completes s i t) (hs : s.EachMemory CanonicalMemory) :
    t.EachMemory CanonicalMemory :=
  h.eachMemory hs
    (hencode := fun _ sl _ => Memory.wf_foldl_set _ _ _ (Memory.wf_fill (hs.fb sl) _))
    (hdecode := fun _ sl _ => Memory.wf_fill (hs.img sl) _)
    (hmarshal := Memory.wf_fill hs.out _)
    (htmap := fun _ _ => Memory.wf_fill hs.map _)

/-- A step keeps the canonical form: a write of an element does, and a command only writes and fills. -/
theorem step_memoriesCanonical {s t : State} (hs : s.MemoriesCanonical) (h : step s = .next t) :
    t.MemoriesCanonical := by
  obtain ⟨ops, d, he⟩ := step_next h
  have hs' : State.EachMemory { s with pending := ops, busData := d } CanonicalMemory :=
    (State.memoriesCanonical_iff _).1 hs
  exact t.memoriesCanonical_iff.2 <| he.eachMemory hs' (fun _ _ => Memory.wf_nil)
    (fun _ _ i x _ hm => Memory.wf_set hm i x) fun _ _ hc => hc.canonical hs'

end Sys2Proof.Machine
end

section
/-! PROOFS. No command writes outside a local memory (20_memory.md R93): the positions of an accepted frame lie inside
its frame buffer (R91, R92), the stream of a table that keeps its rules fits OUT (44_delta_engine.md R223), and the map
of a table that keeps its rules fits MAP (45_tile_board.md R249). -/

namespace Sys2Proof.Machine

/-! ### Frame positions -/

/-- A byte column inside the line and a row inside the bank lie at an offset inside the bank (42_screen_addressing.md
R172, R173). -/
theorem Screen.off1_lt {c : Screen} (h : c.cfgOk = true) {g r : Nat} (hg : g < c.lineWidth) (hr : r < c.rowsPerBank) :
    c.off1 g r < Config.bankSize := by
  obtain ⟨-, hlit, hint⟩ := Screen.cfgOk_iff.1 h
  unfold Screen.off1
  unfold Screen.rowsPerBank at hr
  cases hc : c.binding with
  | literal =>
    rw [hc] at hr
    have hband : r / 8 + 1 ≤ 8 := Nat.div_lt_of_lt_mul hr
    have hrow : r % 8 + 1 ≤ 8 := Nat.mod_lt r (by decide)
    calc r / 8 * 0x800 + r % 8 * c.lineWidth + g
        < r / 8 * 0x800 + (r % 8 + 1) * c.lineWidth := by rw [Nat.succ_mul]; omega
      _ ≤ r / 8 * 0x800 + 8 * c.lineWidth := by gcongr
      _ ≤ (r / 8 + 1) * 0x800 := by have := hlit hc; omega
      _ ≤ 8 * 0x800 := Nat.mul_le_mul_right _ hband
  | interleaved =>
    rw [hc] at hr
    have hband : r / 8 + 1 ≤ 0x800 / c.lineWidth := Nat.div_lt_of_lt_mul hr
    have hrow : r % 8 + 1 ≤ 8 := Nat.mod_lt r (by decide)
    calc r % 8 * 0x800 + r / 8 * c.lineWidth + g
        < r % 8 * 0x800 + (r / 8 + 1) * c.lineWidth := by rw [Nat.succ_mul]; omega
      _ ≤ r % 8 * 0x800 + 0x800 / c.lineWidth * c.lineWidth := by gcongr
      _ ≤ (r % 8 + 1) * 0x800 := by have := Nat.div_mul_le_self 0x800 c.lineWidth; omega
      _ ≤ 8 * 0x800 := Nat.mul_le_mul_right _ hrow

/-- A position of the screen lies inside its banks (42_screen_addressing.md R175, R176). -/
theorem Screen.offset_lt {c : Screen} (h : c.cfgOk = true) {g y : Nat} (hg : g < c.lineWidth) (hy : y < c.rows) :
    c.offset g y < Config.bankSize * c.banks := by
  have hpos : 0 < c.rowsPerBank := Nat.pos_of_mul_pos_right (Nat.zero_lt_of_lt hy)
  have hbank : y / c.rowsPerBank + 1 ≤ c.banks := Nat.div_lt_of_lt_mul hy
  have hoff := Screen.off1_lt h hg (Nat.mod_lt y hpos)
  calc c.offset g y
      = y / c.rowsPerBank * Config.bankSize + c.off1 g (y % c.rowsPerBank) := c.offset_eq g y
    _ < (y / c.rowsPerBank + 1) * Config.bankSize := by rw [Nat.succ_mul]; omega
    _ ≤ c.banks * Config.bankSize := Nat.mul_le_mul_right _ hbank
    _ = Config.bankSize * c.banks := Nat.mul_comm ..

/-- The byte of a position of an accepted frame lies inside the frame (20_memory.md R91, R92). -/
theorem State.FrameOk.loc_lt_frameLen {s : State} {m : GMode} (h : s.FrameOk m) {g y : Nat} (hg : g < s.modeWidth m)
    (hy : y < s.height.toNat) : s.loc m g y < s.frameLen m := by
  obtain ⟨-, hcfg, -, -, -, -, hscreen⟩ := h
  unfold State.loc State.frameLen
  cases hs : s.sprite with
  | true =>
    calc rasterLoc (s.modeWidth m) g y
        < (y + 1) * s.modeWidth m := by rw [rasterLoc, Nat.succ_mul]; omega
      _ ≤ s.height.toNat * s.modeWidth m := Nat.mul_le_mul_right _ hy
      _ = s.modeWidth m * s.height.toNat := Nat.mul_comm ..
  | false =>
    obtain ⟨hw, hh⟩ := hscreen hs
    exact Screen.offset_lt (hcfg hs) (hg.trans_le hw) (hy.trans_le hh)

/-- An accepted frame fits the frame buffer (43_frame_codec.md R190, R191). -/
theorem State.FrameOk.frameLen_le {s : State} {m : GMode} (h : s.FrameOk m) : s.frameLen m ≤ Config.fbCap := by
  obtain ⟨-, -, -, -, -, hsprite, -⟩ := h
  unfold State.frameLen
  cases hs : s.sprite with
  | true => exact hsprite hs
  | false =>
    have hb : s.screen.banks ≤ 2 := by rcases s.screen_banks with h | h <;> omega
    exact Nat.mul_le_mul_left Config.bankSize hb

/-! ### The marshalled stream -/

@[simp] theorem length_bytesLE (n : Nat) : (bytesLE n).length = 2 := rfl

@[simp] theorem length_recordBytes (r : Record) : (recordBytes r).length = 2 + 2 * r.2.length := by
  simp [recordBytes]
  omega

/-- Two bytes for the number of records, two for each record and two for each address (44_delta_engine.md R222). -/
theorem length_streamBytes (recs : List Record) :
    (streamBytes recs).length = 2 + 2 * recs.length + 2 * (recs.map (·.2.length)).sum := by
  induction recs with
  | nil => rfl
  | cons r recs ih =>
    simp only [streamBytes, List.length_append, length_bytesLE, List.flatMap_cons, length_recordBytes, List.map_cons,
      List.sum_cons, List.length_cons] at ih ⊢
    omega

/-- Chunks of a list, put together again. -/
theorem flatMap_chunks {α : Type} (l : List α) (k n : Nat) :
    ((List.range n).flatMap fun q => (l.drop (k * q)).take k) = l.take (k * n) := by
  induction n with
  | zero => simp
  | succ n ih => simp [List.range_succ, ih, Nat.mul_succ, List.take_add]

theorem DtItem.length_records (it : DtItem) : it.records.length = (it.count.toNat + 254) / 255 := by
  simp [DtItem.records]

/-- The records of an item hold no more addresses than the item has. -/
theorem DtItem.sum_records_le (it : DtItem) : (it.records.map (·.2.length)).sum ≤ it.addrs.length := by
  have h : (it.records.map (·.2.length)).sum =
      ((List.range ((it.count.toNat + 254) / 255)).flatMap fun q =>
        ((it.addrs.take it.count.toNat).drop (255 * q)).take 255).length := by
    rw [List.length_flatMap, DtItem.records, List.map_map]
    rfl
  rw [h, flatMap_chunks]
  simp only [List.length_take]
  omega

/-- The records of a table hold no more addresses than the table has. -/
theorem sum_dtRecords_le (dt : List DtItem) : ((dtRecords dt).map (·.2.length)).sum ≤ dtTotal dt := by
  induction dt with
  | nil => exact le_rfl
  | cons it dt ih =>
    have := it.sum_records_le
    simp only [dtRecords, List.flatMap_cons, List.map_append, List.sum_append, dtTotal_cons] at ih ⊢
    omega

/-- Every record of an item but its last one is full, with 255 addresses (44_delta_engine.md R223). -/
theorem length_dtRecords_le {dt : List DtItem} (h : ∀ it ∈ dt, it.CountOk) :
    255 * (dtRecords dt).length ≤ dtTotal dt + 254 * dt.length := by
  induction dt with
  | nil => exact le_rfl
  | cons it dt ih =>
    obtain ⟨⟨hcount, -⟩, hdt⟩ := List.forall_mem_cons.1 h
    have := ih hdt
    simp only [dtRecords, List.flatMap_cons, List.length_append, it.length_records, hcount, dtTotal_cons,
      List.length_cons] at this ⊢
    omega

/-- The stream of a table that keeps its rules fits the stream buffer (10_state.md R49, R51). -/
theorem DeltaTableOk.length_streamBytes_le {dt : List DtItem} (h : DeltaTableOk dt) :
    (streamBytes (dtRecords dt)).length ≤ Config.outCap := by
  have hitems := h.length_le
  obtain ⟨hcount, -, htotal⟩ := h
  have hrecs := length_dtRecords_le hcount
  have haddrs := sum_dtRecords_le dt
  have hcap : Config.dtAddrCap = 32768 := rfl
  have hout : Config.outCap = 66560 := rfl
  rw [length_streamBytes]
  omega

/-! ### Every command and every step -/

/-- The capacity of a window, as a rule about the memory behind it. -/
abbrev WithinWindow (w : Nat) (win : Window) (m : Memory w) : Prop := m.Below win.size

theorem State.memoriesWithinCapacity_iff (s : State) : s.MemoriesWithinCapacity ↔ s.EachMemory WithinWindow := by
  constructor
  · rintro ⟨hslot, hout, hmap⟩
    exact ⟨fun sl => (hslot sl).1, fun sl => (hslot sl).2.1, fun sl => (hslot sl).2.2, hout, hmap⟩
  · rintro ⟨hpal, himg, hfb, hout, hmap⟩
    exact ⟨fun sl => ⟨hpal sl, himg sl, hfb sl⟩, hout, hmap⟩

/-- ENCODE writes inside the frame buffer. -/
theorem State.FrameOk.below_encodedFrame {s : State} {m : GMode} (h : s.FrameOk m) {sl : Slot}
    (hfb : (s.fb.get sl).Below Config.fbCap) : (s.encodedFrame m sl).Below Config.fbCap := by
  refine Memory.below_foldl_set _ _ _ (Memory.below_fill hfb ?_) fun p hp => ?_
  · rw [List.length_replicate]
    exact h.frameLen_le
  · obtain ⟨hg, hy⟩ := State.mem_positions.1 hp
    exact (h.loc_lt_frameLen hg hy).trans_le h.frameLen_le

/-- A valid table that keeps its rules has no more cells than the map buffer. -/
theorem TileTableOk.cells_le {tb : TileTable} (h : TileTableOk tb) (hv : tb.valid = true) :
    tb.cells ≤ Config.mapCap := by
  obtain ⟨-, -, -, -, -, -, hbytes, hfits⟩ := h
  calc tb.cells ≤ tb.cells * tb.tbytes.toNat := Nat.le_mul_of_pos_right _ (hbytes hv)
    _ ≤ Config.fbCap := hfits
    _ ≤ Config.mapCap := fbCap_le_mapCap

theorem Completes.withinCapacity {s t : State} {i : Instr} (h : Completes s i t) (hs : s.EachMemory WithinWindow)
    (hdt : DeltaTableOk s.dt) (htb : TileTableOk s.tb) : t.EachMemory WithinWindow := by
  refine h.eachMemory hs (hencode := fun m sl ha => ?_) (hdecode := fun m sl ha => ?_)
    (hmarshal := Memory.below_fill hs.out hdt.length_streamBytes_le) (htmap := fun sl ha => ?_)
  · exact ha.1.below_encodedFrame (hs.fb sl)
  · obtain ⟨⟨-, -, himage⟩, -⟩ := ha
    refine Memory.below_fill (hs.img sl) ?_
    rw [List.length_map, State.frameIndices, List.length_map, List.length_range]
    exact himage
  · refine Memory.below_fill hs.map ?_
    rw [List.length_map, State.cellIndices, List.length_map, List.length_range]
    exact TileTableOk.cells_le htb ha.1

/-- A step keeps the capacities where the rules of the two tables hold. -/
theorem step_memoriesWithinCapacity {s t : State} (hs : s.MemoriesWithinCapacity) (hdt : DeltaTableOk s.dt)
    (htb : TileTableOk s.tb) (h : step s = .next t) : t.MemoriesWithinCapacity := by
  obtain ⟨ops, d, he⟩ := step_next h
  have hs' : State.EachMemory { s with pending := ops, busData := d } WithinWindow :=
    (State.memoriesWithinCapacity_iff _).1 hs
  exact t.memoriesWithinCapacity_iff.2 <| he.eachMemory hs' (fun _ _ => nofun)
    (fun _ _ _ x hi hm => Memory.below_set hm hi x) fun _ _ hc => hc.withinCapacity hs' hdt htb

end Sys2Proof.Machine
end

section
/-! PROOFS. What ERR can hold (60_exceptions.md R281, R286, R289): the code of a fatal error, or event bits over code 0;
and with it that a step keeps every rule of the state. -/

namespace Sys2Proof.Machine

/-- NotFound and AddressOutOfRange are events and never fatal (60_exceptions.md R281). -/
def Err.fatal : Err → Bool
  | .notFound | .addressOutOfRange => false
  | .capacityExceeded | .sizeMismatch | .invalidDimensions | .indexOutOfRange | .illegalCommand | .badConfig
  | .badStream | .badState => true

/-- An ERR word with no bit outside ERR.EVT, so ERR.CODE is 0 (60_exceptions.md R289). -/
abbrev EventsOnly (w : Word) : Prop := w &&& ~~~0x00070000#32 = 0

theorem EventsOnly.flag {s : State} (h : EventsOnly s.err) (e : Event) (n : Nat) : EventsOnly (s.flag e n).err := by
  have hbit : EventsOnly e.evtBit := by cases e <;> rfl
  rw [State.flag_err]
  split
  · exact h
  · unfold EventsOnly at *
    rw [BitVec.and_or_distrib_right, h, hbit]
    exact BitVec.or_zero

theorem EventsOnly.reportLookup {s : State} (h : EventsOnly s.err) (r : Option Nat) :
    EventsOnly (s.reportLookup r).err := by
  cases r with
  | none => exact h.flag .notFound 1
  | some _ => exact h

theorem eventsOnly_clearReport (s : State) : EventsOnly s.clearReport.err := BitVec.zero_and

theorem State.errReportOk_raise {e : Err} (h : e.fatal = true) (w : Word) (s : State) : (s.raise e w).ErrReportOk := by
  refine .inl ⟨e, ?_, ?_, rfl⟩ <;> (rintro rfl; simp [Err.fatal] at h)

/-- A command whose prechecks raise fatal errors only, and whose operation flags events only, answers with a report. -/
theorem guarded_reports {w : Word} {cs : List Check} {s : State} {op : State → State}
    (hcs : (cs.all fun c => c.2.fatal) = true) (hop : EventsOnly (op s.clearReport).err) :
    ∃ t, guarded w cs s op = .next t ∧ t.ErrReportOk := by
  rcases guarded_cases w cs s op with ⟨e, he, hg⟩ | ⟨-, hg⟩
  · obtain ⟨pre, post, rfl, -⟩ := firstFailure_eq_some he
    exact ⟨_, hg, State.errReportOk_raise (List.all_eq_true.1 hcs (true, e) (by simp)) w s⟩
  · exact ⟨_, hg, .inr hop⟩

/-- The same for a command that reads MODE first. -/
theorem withMode_reports {w : Word} {cs : GMode → List Check} {s : State} {op : GMode → State → State}
    (hcs : ∀ m, ((cs m).all fun c => c.2.fatal) = true) (hop : ∀ m, EventsOnly (op m s.clearReport).err) :
    ∃ t, (withMode w s fun m => guarded w (cs m) s (op m)) = .next t ∧ t.ErrReportOk := by
  rcases withMode_cases w s fun m => guarded w (cs m) s (op m) with ⟨-, hw⟩ | ⟨m, -, hw⟩ <;> rw [hw]
  · exact ⟨_, rfl, State.errReportOk_raise rfl w s⟩
  · exact guarded_reports (hcs m) (hop m)

/-- No command ends in a fault or a refusal (00_scope.md R14): each answers with a report, whatever ERR held before. -/
theorem exec_reports (i : Instr) (s : State) : ∃ t, exec i s = .next t ∧ t.ErrReportOk := by
  have h0 := eventsOnly_clearReport s
  cases i with
  | nop | sreset | dclr | marshal | tclr => exact ⟨_, rfl, .inr h0⟩
  | dadd v a =>
    unfold exec execDadd
    exact guarded_reports rfl h0
  | unmarshal =>
    unfold exec execUnmarshal
    exact guarded_reports rfl h0
  | treduce imm16 =>
    unfold exec execTreduce
    exact guarded_reports rfl h0
  | tsort =>
    unfold exec execTsort
    exact guarded_reports rfl (EventsOnly.flag h0 _ _)
  | tmap sl => exact guarded_reports rfl (EventsOnly.flag h0 _ _)
  | plookup sl | tlookup sl => exact guarded_reports rfl (h0.reportLookup _)
  | pack | unpack => exact withMode_reports (fun _ => rfl) fun _ => h0
  | safwd | sainv | encodeFrame sl | decodeFrame sl | diff | tanalyze sl =>
    exact withMode_reports (fun _ => rfl) fun _ => EventsOnly.flag h0 _ _
  | diffi => exact withMode_reports (fun _ => rfl) fun _ => EventsOnly.flag (EventsOnly.flag h0 _ _) _ _

theorem exec_errReportOk {i : Instr} {s t : State} (h : exec i s = .next t) : t.ErrReportOk := by
  obtain ⟨u, hu, hok⟩ := exec_reports i s
  exact Host.Outcome.next.inj (hu.symm.trans h) ▸ hok

/-- A step keeps the report or makes a new one; reset clears it. -/
theorem HostEffect.errReportOk {s t : State} (h : HostEffect s t) (hs : s.ErrReportOk) : t.ErrReportOk := by
  cases h with
  | keep | assertReset => exact hs
  | releaseReset => exact .inr BitVec.zero_and
  | register r v => cases r <;> exact hs
  | element m i v => cases m <;> exact hs
  | command i t h => exact exec_errReportOk h
  | illegal w => exact State.errReportOk_raise rfl w s

/-- Settles O60: the tables keep their rules by O58 and O59, and with these the memories keep their capacities. -/
theorem stepKeepsEveryRule : Obligations.StepKeepsEveryRule := by
  refine ⟨fun s t hs h => step_memoriesCanonical hs h, fun s t hs h => ?_⟩
  obtain ⟨hcanonical, hcapacity, hdt, htb, herr⟩ := hs
  obtain ⟨ops, d, he⟩ := step_next h
  exact ⟨⟨step_memoriesCanonical hcanonical h, step_memoriesWithinCapacity hcapacity hdt htb h,
    stepKeepsDeltaTable s t hdt h, stepKeepsTileTable s t htb h, he.errReportOk herr⟩, he.binding⟩

end Sys2Proof.Machine
end

section
/-! PROOFS. The host's accesses by address (20_memory.md R82, R83, R88 to R90): which addresses are reserved, what a read
of a window element returns, which accesses answer, and what a write of an element leaves. -/

namespace Sys2Proof.Machine

/-! ### Reserved addresses -/

/-- The word addresses that 20_memory.md R82 reserves. -/
abbrev ReservedAddress (n : Nat) : Prop :=
  (0x2B ≤ n ∧ n ≤ 0x3F) ∨ (0x60 ≤ n ∧ n ≤ 0x7FFF) ∨ (0x30400 ≤ n ∧ n ≤ 0x3FFFF) ∨ (0x5FE00 ≤ n ∧ n ≤ 0x7FFFF)

/-- No window has an element at a reserved address. -/
theorem ReservedAddress.not_mem_window {n : Nat} (h : ReservedAddress n) (m : Window) :
    ¬ (windowBase m ≤ n ∧ n < windowBase m + m.size) := by
  obtain ⟨base, size, hm, hbase, hsize, -⟩ := addressMapPlaces.2 m
  simp only [List.mem_cons, Prod.mk.injEq, List.not_mem_nil, or_false] at hm
  rw [hbase, hsize]
  omega

theorem locate_of_reserved {n : Nat} (h : ReservedAddress n) : locate n = .reserved := by
  have hreg : regTable.find? (fun r => regAddr r == n) = none := by
    refine List.find?_eq_none.2 fun r _ => ?_
    have := regAddr_lt r
    simp
    omega
  have hwin : windowTable.find? (fun m => windowBase m ≤ n && n < windowBase m + m.size) = none :=
    List.find?_eq_none.2 fun m _ => by simpa using h.not_mem_window m
  simp only [locate, hreg, hwin]

/-- The registers fill the addresses below 0x2B (10_state.md R44). -/
theorem exists_regAddr {n : Nat} (h : n < 0x2B) : ∃ r, regAddr r = n := by
  have hall : ∀ k < 0x2B, ∃ r ∈ regTable, regAddr r = k := by decide
  obtain ⟨r, -, hr⟩ := hall n h
  exact ⟨r, hr⟩

/-- The windows fill the addresses from 0x2B on that are not reserved. -/
theorem exists_windowBase {n : Nat} (hn : n < 2 ^ 20) (hr : 0x2B ≤ n) (h : ¬ ReservedAddress n) :
    ∃ (m : Window) (i : Nat), i < m.size ∧ windowBase m + i = n := by
  obtain ⟨m, hlo, hhi⟩ : ∃ m : Window, windowBase m ≤ n ∧ n < windowBase m + m.size := by
    have hwin : (0x40 ≤ n ∧ n < 0x50) ∨ (0x50 ≤ n ∧ n < 0x60) ∨ (0x8000 ≤ n ∧ n < 0x10000) ∨
        (0x10000 ≤ n ∧ n < 0x18000) ∨ (0x18000 ≤ n ∧ n < 0x20000) ∨ (0x20000 ≤ n ∧ n < 0x30400) ∨
        (0x40000 ≤ n ∧ n < 0x5FE00) ∨ (0x80000 ≤ n ∧ n < 0xC0000) ∨ (0xC0000 ≤ n ∧ n < 0x100000) := by omega
    rcases hwin with h | h | h | h | h | h | h | h | h
    exacts [⟨.pal .a, h⟩, ⟨.pal .b, h⟩, ⟨.fb .a, h⟩, ⟨.fb .b, h⟩, ⟨.map, h⟩, ⟨.out, h⟩, ⟨.tile, h⟩, ⟨.img .a, h⟩,
      ⟨.img .b, h⟩]
  exact ⟨m, n - windowBase m, by omega, by omega⟩

/-- An address that is not reserved is that of a register or that of a window element. -/
theorem bus_address_cases {wa : BusAddr} (h : ¬ ReservedAddress wa.toNat) :
    (∃ r, wa = BitVec.ofNat 20 (regAddr r)) ∨
    ∃ (m : Window) (i : Nat), i < m.size ∧ wa = BitVec.ofNat 20 (windowBase m + i) := by
  by_cases hr : wa.toNat < 0x2B
  · obtain ⟨r, hr⟩ := exists_regAddr hr
    exact .inl ⟨r, by rw [hr, BitVec.ofNat_toNat, BitVec.setWidth_eq]⟩
  · obtain ⟨m, i, hi, hm⟩ := exists_windowBase wa.isLt (by omega) h
    exact .inr ⟨m, i, hi, by rw [hm, BitVec.ofNat_toNat, BitVec.setWidth_eq]⟩

/-- The bus error of 20_memory.md R88. -/
theorem hostRead_of_reserved {wa : BusAddr} (h : ReservedAddress wa.toNat) (s : State) :
    hostRead wa s = .fault (.busError wa) := by simp only [hostRead, locate_of_reserved h]

theorem hostWrite_of_reserved {wa : BusAddr} (h : ReservedAddress wa.toNat) (v : Word) (s : State) :
    hostWrite wa v s = .fault (.busError wa) := by simp only [hostWrite, locate_of_reserved h]

/-! ### Accesses to window elements -/

theorem toNat_windowBase_add {m : Window} {i : Nat} (h : i < m.size) :
    (BitVec.ofNat 20 (windowBase m + i)).toNat = windowBase m + i :=
  Nat.mod_eq_of_lt (lt_of_lt_of_le (Nat.add_lt_add_left h _) (windowBase_add_size_le m))

theorem hostRead_elem {m : Window} {i : Nat} (h : i < m.size) (s : State) :
    hostRead (BitVec.ofNat 20 (windowBase m + i)) s = .next { s with busData := some (s.readElem i m) } := by
  simp only [hostRead, toNat_windowBase_add h, locate_windowBase m h]

theorem hostWrite_elem {m : Window} {i : Nat} (h : i < m.size) (v : Word) (s : State) :
    hostWrite (BitVec.ofNat 20 (windowBase m + i)) v s =
      .next (State.writeElem { s with busData := none } i v m) := by
  simp only [hostWrite, toNat_windowBase_add h, locate_windowBase m h]

/-- The word of a byte element is the low byte of what was written (20_memory.md R83). -/
theorem zext32_setWidth_byte (v : Word) : zext32 (v.setWidth 8) = v &&& 0xFF := by
  apply BitVec.eq_of_toNat_eq
  rw [zext32_setWidth, BitVec.toNat_and, BitVec.toNat_ofNat]
  exact (Nat.mod_eq_of_lt (by omega)).trans (Nat.and_two_pow_sub_one_eq_mod v.toNat 8).symm

/-- Element `j` of entry `t` is at index 512 t + j of the TILE window (10_state.md R53). -/
theorem State.readElem_tile (s : State) (t : Nat) {j : Nat} (h : j < 512) :
    s.readElem (512 * t + j) .tile = zext32 (s.tileAt t j) := by
  have ht : (512 * t + j) / Config.tileMaxBytes = t := by rw [show Config.tileMaxBytes = 512 from rfl]; omega
  have hj : (512 * t + j) % Config.tileMaxBytes = j := by rw [show Config.tileMaxBytes = 512 from rfl]; omega
  simp only [State.readElem, ht, hj]

/-- A write of a window element changes the local memories only. -/
theorem State.writeElem_frame (s : State) (i : Nat) (v : Word) (m : Window) :
    s.writeElem i v m =
      { s with
        pal := (s.writeElem i v m).pal, img := (s.writeElem i v m).img, fb := (s.writeElem i v m).fb
        out := (s.writeElem i v m).out, map := (s.writeElem i v m).map } := by
  cases m <;> rfl

/-- What an element of a window keeps of a word: a byte element bits 7:0 (20_memory.md R83). -/
def keptWord (m : Window) (v : Word) : Word :=
  match m with
  | .pal _ | .img _ => v
  | .fb _ | .out | .map | .tile => v &&& 0xFF

/-- A written element reads back as what it keeps. -/
theorem State.readElem_writeElem_self (s : State) (i : Nat) (v : Word) {m : Window} (h : m ≠ .tile) :
    (s.writeElem i v m).readElem i m = keptWord m v := by
  cases m with
  | pal sl => simp [State.writeElem, State.readElem, State.palAt, keptWord]
  | img sl => simp [State.writeElem, State.readElem, State.imgAt, keptWord]
  | fb sl => simp [State.writeElem, State.readElem, State.fbAt, keptWord, zext32_setWidth_byte]
  | out => simp [State.writeElem, State.readElem, State.outAt, keptWord, zext32_setWidth_byte]
  | map => simp [State.writeElem, State.readElem, State.mapAt, keptWord, zext32_setWidth_byte]
  | tile => exact absurd rfl h

/-- Writing one element of one slot's memory changes no other element of either slot. -/
theorem PerSlot.read_set_of_ne {w : Nat} (p : PerSlot (Memory w)) {sl sl' : Slot} {i j : Nat} (h : (sl', j) ≠ (sl, i))
    (x : BitVec w) (e : Nat) (win : Window) :
    Memory.read ((p.set sl ((p.get sl).set i x)).get sl') e win j = (p.get sl').read e win j := by
  by_cases hsl : sl = sl'
  · subst hsl
    rw [PerSlot.get_set_self, Memory.read_set_ne _ _ _ (fun hij => h (by rw [hij]))]
  · rw [PerSlot.get_set_ne p hsl]

/-- Every other element of every window reads as before. -/
theorem State.readElem_writeElem_of_ne (s : State) {i j : Nat} (v : Word) {m m' : Window} (h : (m', j) ≠ (m, i)) :
    (s.writeElem i v m).readElem j m' = s.readElem j m' := by
  cases m with
  | pal sl =>
    cases m' with
    | pal sl' => exact PerSlot.read_set_of_ne s.pal (by simpa using h) v _ _
    | _ => rfl
  | img sl =>
    cases m' with
    | img sl' => exact PerSlot.read_set_of_ne s.img (by simpa using h) v _ _
    | _ => rfl
  | fb sl =>
    cases m' with
    | fb sl' => exact congrArg zext32 (PerSlot.read_set_of_ne s.fb (by simpa using h) _ _ _)
    | _ => rfl
  | out =>
    cases m' with
    | out => exact congrArg zext32 (Memory.read_set_ne s.out _ _ (by simpa [eq_comm] using h) _)
    | _ => rfl
  | map =>
    cases m' with
    | map => exact congrArg zext32 (Memory.read_set_ne s.map _ _ (by simpa [eq_comm] using h) _)
    | _ => rfl
  | tile => rfl

/-! ### Which accesses answer -/

/-- A write of CMD answers, whether the word is a command or not. -/
theorem runCommand_answers (w : Word) (s : State) : ∃ t, runCommand w s = .next t := by
  rcases runCommand_cases w s with ⟨i, -, h⟩ | ⟨e, -, h⟩
  · obtain ⟨t, ht, -⟩ := exec_reports i s
    exact ⟨t, h.trans ht⟩
  · exact ⟨_, h⟩

/-- A read of an address that is not reserved returns a word. -/
theorem hostRead_answers {wa : BusAddr} (h : ¬ ReservedAddress wa.toNat) (s : State) :
    ∃ r : Word, hostRead wa s = .next { s with busData := some r } := by
  rcases bus_address_cases h with ⟨r, rfl⟩ | ⟨m, i, hi, rfl⟩
  · exact ⟨_, hostRead_reg r s⟩
  · exact ⟨_, hostRead_elem hi s⟩

/-- A write of an address that is not reserved answers, a write of CMD with what its command leaves. -/
theorem hostWrite_answers {wa : BusAddr} (h : ¬ ReservedAddress wa.toNat) (v : Word) (s : State) :
    ∃ t, hostWrite wa v s = .next t := by
  rcases bus_address_cases h with ⟨r, rfl⟩ | ⟨m, i, hi, rfl⟩
  · by_cases hr : r = .CMD
    · subst hr
      exact runCommand_answers v _
    · exact ⟨_, hostWrite_reg hr v s⟩
  · exact ⟨_, hostWrite_elem hi v s⟩

/-! ### The statements -/

/-- Settles O5: an address is reserved, a register's or a window element's. -/
theorem busAccessesAnswer : Obligations.BusAccessesAnswer := by
  refine ⟨fun wa v s hr => ⟨fun hres => ?reserved, fun hres => ?answers⟩, fun s hr => ⟨fun r => ?register,
    fun m i hi => ?element⟩, fun s => ⟨?registers, fun sl i => ⟨rfl, rfl, rfl⟩, fun i => ⟨rfl, rfl⟩,
      fun t j hj => s.readElem_tile t hj⟩⟩
  case reserved =>
    rw [runOp_read hr, runOp_write hr]
    exact ⟨hostRead_of_reserved hres s, hostWrite_of_reserved hres v s⟩
  case answers =>
    rw [runOp_read hr, runOp_write hr]
    exact ⟨hostRead_answers hres s, hostWrite_answers hres v s⟩
  case register => rw [runOp_read hr, hostRead_reg]
  case element => rw [runOp_read hr, hostRead_elem hi]
  case registers => and_intros <;> rfl

/-- Settles O7: the write is `writeElem` at the element's address. -/
theorem elementWriteThenRead : Obligations.ElementWriteThenRead := by
  intro m i v s hm hi
  refine ⟨_, hostWrite_elem hi v s, State.writeElem_frame _ i v m, ?_,
    fun m' j h => State.readElem_writeElem_of_ne _ v h⟩
  rw [State.readElem_writeElem_self _ i v hm]
  cases m <;> rfl

/-- Settles O8: a read-only register and the TILE window are the places that a write leaves alone. -/
theorem readOnlyWritesAreIgnored : Obligations.ReadOnlyWritesAreIgnored := by
  refine ⟨fun r v s hr => ?_, fun i v s hi => hostWrite_elem (m := .tile) hi v s⟩
  have hcmd : r ≠ .CMD := by rintro rfl; simp at hr
  rw [hostWrite_reg hcmd]
  cases r with
  | ERR | ERRCMD | RES0 | RES1 | MAPLEN | DT_NITEMS | DT_NADDR | DT_ITEM | DT_ADDR | TB_NTILES | TB_GEOM | TB_GRID
  | TB_INFO | TB_COUNT | ID | PARAMS0 | PARAMS1 => rfl
  | _ => simp at hr

end Sys2Proof.Machine
end

section
/-! PROOFS. Decoding and encoding are inverse to each other (30_encoding.md R110 to R113), and a word that no command
encodes to is illegal (R114, R115). -/

namespace Sys2Proof.Machine

/-! ### What the decoder answers -/

/-- A word with the opcode of a row is that row's command if its must-be-zero bits are 0 (R113). -/
theorem decode_of_opcode {w : Word} {m : Mnemonic} (hop : m.opcode = opField w)
    (hz : operandField w &&& m.format.zeroBits = 0) : decode w = .ok (m.toInstr w) := by
  simp only [decode, ← hop, find_opcodeTable, hz, if_true]

theorem decode_of_mustBeZeroBit {w : Word} {m : Mnemonic} (hop : m.opcode = opField w)
    (hz : operandField w &&& m.format.zeroBits ≠ 0) : decode w = .error .mustBeZeroBitSet := by
  simp only [decode, ← hop, find_opcodeTable, hz, if_false]

theorem decode_of_unassigned {w : Word} (h : ∀ m : Mnemonic, m.opcode ≠ opField w) :
    decode w = .error .unassignedOpcode := by
  have hnone : opcodeTable.find? (fun m => m.opcode == opField w) = none :=
    List.find?_eq_none.2 fun m _ heq => h m (beq_iff_eq.1 heq)
  simp only [decode, hnone]

/-- A word that decodes has the opcode of a row, 0 in the row's must-be-zero bits, and the operands of its fields. -/
theorem decode_eq_ok {w : Word} {i : Instr} (h : decode w = .ok i) :
    ∃ m : Mnemonic, m.opcode = opField w ∧ operandField w &&& m.format.zeroBits = 0 ∧ i = m.toInstr w := by
  by_cases hrow : ∃ m : Mnemonic, m.opcode = opField w
  · obtain ⟨m, hop⟩ := hrow
    by_cases hz : operandField w &&& m.format.zeroBits = 0
    · rw [decode_of_opcode hop hz] at h
      exact ⟨m, hop, hz, (Except.ok.inj h).symm⟩
    · rw [decode_of_mustBeZeroBit hop hz] at h
      cases h
  · rw [decode_of_unassigned (not_exists.1 hrow)] at h
    cases h

/-! ### The word of a decoded command -/

theorem opField_append_operandField (w : Word) : opField w ++ operandField w = w := by
  have happend : w.extractLsb' 24 8 ++ w.extractLsb' 0 24 = w.extractLsb' 0 32 :=
    BitVec.extractLsb'_append_extractLsb'_eq_extractLsb' rfl
  exact happend.trans BitVec.extractLsb'_eq_self

theorem val8Field_append_imm16Field (w : Word) : val8Field w ++ imm16Field w = operandField w :=
  BitVec.extractLsb'_append_extractLsb'_eq_extractLsb' rfl

/-- Format N has no operand: a word with its zero bits has operand bits 0 (R111). -/
theorem operandField_of_formatN {w : Word} (hz : operandField w &&& Format.N.zeroBits = 0) : operandField w = 0 :=
  BitVec.and_allOnes.symm.trans hz

/-- A mask of the upper bits that leaves 0 says that the upper part is 0. -/
theorem upper_eq_zero_of_mask {m n : Nat} {hi : BitVec m} {lo : BitVec n}
    (h : (hi ++ lo) &&& (BitVec.allOnes m ++ 0#n) = 0#m ++ 0#n) : hi = 0#m := by
  rw [BitVec.and_append, BitVec.and_allOnes, BitVec.and_zero] at h
  exact (BitVec.append_left_inj _).1 h

theorem slotBits_eq_append_ofBool (w : Word) : slotBits (slotField w) = 0#23 ++ BitVec.ofBool (w.getLsbD 0) := by
  unfold slotField
  cases w.getLsbD 0 <;> rfl

/-- In format S bit 0 alone may be 1, and it is the slot (R111, R112). -/
theorem slotBits_slotField {w : Word} (hz : operandField w &&& Format.S.zeroBits = 0) :
    slotBits (slotField w) = operandField w := by
  have hbit : BitVec.ofBool (w.getLsbD 0) = w.extractLsb' 0 1 := by
    ext k hk
    obtain rfl : k = 0 := by omega
    simp
  have hsplit : w.extractLsb' 1 23 ++ w.extractLsb' 0 1 = operandField w :=
    BitVec.extractLsb'_append_extractLsb'_eq_extractLsb' rfl
  have hupper : w.extractLsb' 1 23 = 0#23 := by
    rw [← hsplit] at hz
    exact upper_eq_zero_of_mask hz
  rw [slotBits_eq_append_ofBool, hbit, ← hsplit, hupper]

/-- In format I the upper byte of the operand bits is 0 (R111). -/
theorem zero_append_imm16Field {w : Word} (hz : operandField w &&& Format.I.zeroBits = 0) :
    0#8 ++ imm16Field w = operandField w := by
  have hupper : val8Field w = 0#8 := by
    rw [← val8Field_append_imm16Field] at hz
    exact upper_eq_zero_of_mask hz
  rw [← val8Field_append_imm16Field, hupper]

theorem mnemonic_toInstr (m : Mnemonic) (w : Word) : (m.toInstr w).mnemonic = m := by
  cases m <;> rfl

/-- The fields lose no operand bit that may be 1. -/
theorem operandBits_toInstr {m : Mnemonic} {w : Word} (hz : operandField w &&& m.format.zeroBits = 0) :
    operandBits (m.toInstr w) = operandField w := by
  cases m with
  | PLOOKUP | ENCODE | DECODE | TANALYZE | TLOOKUP | TMAP => exact slotBits_slotField hz
  | DADD => exact val8Field_append_imm16Field w
  | TREDUCE => exact zero_append_imm16Field hz
  | _ => exact (operandField_of_formatN hz).symm

/-- A word that decodes is the word of its command. -/
theorem encode_of_decode {w : Word} {i : Instr} (h : decode w = .ok i) : encode i = w := by
  obtain ⟨m, hop, hz, rfl⟩ := decode_eq_ok h
  calc encode (m.toInstr w) = m.opcode ++ operandBits (m.toInstr w) := by rw [encode, mnemonic_toInstr]
    _ = opField w ++ operandField w := by rw [hop, operandBits_toInstr hz]
    _ = w := opField_append_operandField w

/-! ### Words of no command -/

theorem opcode_injective : Function.Injective Mnemonic.opcode := by
  intro m n h
  have hfind := find_opcodeTable m
  rw [h, find_opcodeTable n] at hfind
  exact (Option.some.inj hfind).symm

/-- The opcodes that 30_encoding.md R115 lists. -/
abbrev UnassignedOpcode (op : Nat) : Prop :=
  (0x02 ≤ op ∧ op ≤ 0x0F) ∨ (0x11 ≤ op ∧ op ≤ 0x1F) ∨ (0x22 ≤ op ∧ op ≤ 0x2F) ∨ (0x32 ≤ op ∧ op ≤ 0x3F) ∨
  (0x42 ≤ op ∧ op ≤ 0x4F) ∨ (0x56 ≤ op ∧ op ≤ 0x5F) ∨ (0x66 ≤ op ∧ op ≤ 0xFF)

theorem opcode_assigned (m : Mnemonic) : ¬ UnassignedOpcode m.opcode.toNat := by
  cases m <;> decide

theorem opcode_ne_of_unassigned {w : Word} (h : UnassignedOpcode (opField w).toNat) (m : Mnemonic) :
    m.opcode ≠ opField w :=
  fun hop => opcode_assigned m (hop ▸ h)

theorem encode_ne_of_unassigned {w : Word} (h : UnassignedOpcode (opField w).toNat) (i : Instr) : encode i ≠ w := by
  rintro rfl
  exact opcode_ne_of_unassigned h i.mnemonic (opField_encode i).symm

theorem encode_ne_of_mustBeZeroBit {w : Word} {m : Mnemonic} (hop : m.opcode = opField w)
    (hz : operandField w &&& m.format.zeroBits ≠ 0) (i : Instr) : encode i ≠ w := by
  rintro rfl
  obtain rfl : m = i.mnemonic := opcode_injective (hop.trans (opField_encode i))
  exact hz (by rw [operandField_encode, operandBits_and_zeroBits])

/-- A word of no command is the fatal error IllegalCommand (R115). -/
theorem runCommand_of_illegal {w : Word} (h : ∀ i : Instr, encode i ≠ w) (s : State) :
    runCommand w s = .next (s.raise .illegalCommand w) := by
  obtain ⟨i, hd, -⟩ | ⟨-, -, hrun⟩ := runCommand_cases w s
  · exact absurd (encode_of_decode hd) (h i)
  · exact hrun

/-! ### The statements -/

/-- Settles O1: each field of a format is read back from its bits, and all its other bits are checked to be 0. -/
theorem decodeAndEncodeAgree : Obligations.DecodeAndEncodeAgree :=
  ⟨decode_encode, fun _ _ h => encode_of_decode h⟩

/-- Settles O2: each listed word is the word of its command; the last two have a must-be-zero bit of a PACK and an
opcode that R115 lists. -/
theorem listedWordsDecode : Obligations.ListedWordsDecode :=
  ⟨decode_encode .nop, decode_encode .sreset, decode_encode (.plookup .b), decode_encode (.plookup .a),
    decode_encode .pack, decode_encode .unpack, decode_encode .safwd, decode_encode .sainv,
    decode_encode (.encodeFrame .b), decode_encode (.decodeFrame .b), decode_encode .dclr,
    decode_encode (.dadd 0x3F 0xC050), decode_encode .diff, decode_encode .diffi, decode_encode .marshal,
    decode_encode .unmarshal, decode_encode .tclr, decode_encode (.tanalyze .b), decode_encode (.treduce 3),
    decode_encode .tsort, decode_encode (.tlookup .b), decode_encode (.tmap .b),
    decode_of_mustBeZeroBit (m := .PACK) (by decide) (by decide),
    decode_of_unassigned (opcode_ne_of_unassigned (by decide))⟩

/-- Settles O3: a word that decodes is a command's word, so a word of no command is refused by the decoder. -/
theorem illegalWordReports : Obligations.IllegalWordReports :=
  ⟨fun _ s h => runCommand_of_illegal h s, fun _ _ i hop hz => encode_ne_of_mustBeZeroBit hop hz i,
    fun _ i hop => encode_ne_of_unassigned hop i⟩

end Sys2Proof.Machine
end

section
/-! PROOFS. PLOOKUP (40_palette_index.md R141): its one precheck, then the two answers of the look-up. -/

namespace Sys2Proof.Machine

/-! ### What PLOOKUP answers -/

/-- The one precheck fails on a palette length above 16. -/
theorem firstFailure_palLen (n : Nat) :
    firstFailure [(Config.palEntries < n, .badConfig)] = if 16 < n then some .badConfig else none := by
  simp only [firstFailure_cons, firstFailure_nil, decide_eq_true_eq]
  rfl

theorem exec_plookup_of_palLen_gt {sl : Slot} {s : State} (h : 16 < (s.palLen.get sl).toNat) :
    exec (.plookup sl) s = .next (s.raise .badConfig (encode (.plookup sl))) :=
  guarded_of_fail ((firstFailure_palLen _).trans (if_pos h))

/-- With a legal palette length PLOOKUP reports what the look-up finds. -/
theorem exec_plookup_of_palLen_le {sl : Slot} {s : State} (h : (s.palLen.get sl).toNat ≤ 16) :
    exec (.plookup sl) s = .next (s.clearReport.reportLookup (s.lookup sl s.arg0)) :=
  guarded_of_pass ((firstFailure_palLen _).trans (if_neg (Nat.not_lt.2 h)))

/-- A miss is one NotFound event, in FLAGS, ERR.EVT and NF_CNT, with position 0 substituted (R140, R287, R289). -/
theorem State.clearReport_reportLookup_none (s : State) :
    s.clearReport.reportLookup none = { s with
      err := 0x00010000, flags := s.flags ||| 0x001
      nfCnt := BitVec.ofNat 32 (min (s.nfCnt.toNat + 1) (2 ^ 32 - 1)), res0 := 0, res1 := 1 } := by
  have hbit : Event.notFound.err.flagBit = 0x001 := by decide
  have hevt : (0 : Word) ||| Event.notFound.evtBit = 0x00010000 := by decide
  rw [State.reportLookup_none, ← hbit, ← hevt]
  rfl

/-! ### The statement -/

/-- Settles O22: PLOOKUP reports `State.lookup`, whose hit is the lowest position that holds the colour. -/
theorem plookupFindsLowestPosition : Obligations.PlookupFindsLowestPosition := by
  refine ⟨rfl, rfl, fun sl s => ⟨exec_plookup_of_palLen_gt,
    fun hlen => ⟨fun i hi hat hlow => ?hit, fun hnone => ?miss⟩⟩⟩
  case hit =>
    have hfind : s.lookup sl s.arg0 = some i := State.lookup_eq_some.2 ⟨hi, hat, hlow⟩
    rw [exec_plookup_of_palLen_le hlen, hfind]
    rfl
  case miss =>
    have hfind : s.lookup sl s.arg0 = none := State.lookup_eq_none.2 hnone
    rw [exec_plookup_of_palLen_le hlen, hfind, State.clearReport_reportLookup_none]

end Sys2Proof.Machine
end

section
/-! PROOFS. Packing is a bijection with unpacking as its inverse (41_pixel_packer.md R154), for every bijective table of
bit positions. -/

namespace Sys2Proof.Machine

theorem getD_unpackBy (T : PosTable) {m : GMode} (b : Byte) {k : Nat} (hk : k < m.ppb) :
    (unpackBy T m b).getD k 0 = unpackAtBy T m b k := by
  rw [List.getD_eq_getElem?_getD, getElem?_unpackBy T b hk, Option.getD_some]

/-- Every unpacked index lies within the bound of the mode. -/
theorem lt_of_mem_unpackBy {T : PosTable} {m : GMode} {b : Byte} {v : Nat} (hv : v ∈ unpackBy T m b) :
    v < 2 ^ m.bpp := by
  obtain ⟨k, -, rfl⟩ := List.mem_map.1 hv
  exact unpackAtBy_lt T m b k

section
variable {T : PosTable} {m : GMode}

/-- Every bit of a byte is the position of one pair of pixel and index bit. -/
theorem exists_pos_eq_of_bijective (h : T.Bijective) (m : GMode) {i : Nat} (hi : i < 8) :
    ∃ k < m.ppb, ∃ j < m.bpp, T m k j = i := by
  have hmem : i ∈ (planes m).map fun kj => T m kj.1 kj.2 :=
    (perm_planes_of_bijective h m).mem_iff.2 (List.mem_range.2 hi)
  obtain ⟨⟨k, j⟩, hkj, hpos⟩ := List.mem_map.1 hmem
  obtain ⟨hk, hj⟩ := mem_planes.1 hkj
  exact ⟨k, hk, j, hj, hpos⟩

/-- An index within the bound of the mode comes back: both sides have its bits below BPP and none above. -/
theorem unpackAtBy_packBy (h : T.Bijective) {p : List Nat} {k : Nat} (hk : k < m.ppb)
    (hv : p.getD k 0 < 2 ^ m.bpp) : unpackAtBy T m (packBy T m p) k = p.getD k 0 := by
  refine Nat.eq_of_testBit_eq fun j => ?_
  rcases lt_or_ge j m.bpp with hj | hj
  · rw [unpackAtBy_testBit T m _ k hj, packBy_getLsbD_pos h p hk hj]
  · have hpow : 2 ^ m.bpp ≤ 2 ^ j := Nat.pow_le_pow_right two_pos hj
    rw [Nat.testBit_lt_two_pow ((unpackAtBy_lt T m _ k).trans_le hpow), Nat.testBit_lt_two_pow (hv.trans_le hpow)]

/-- R154 (a). -/
theorem unpackBy_packBy (h : T.Bijective) {p : List Nat} (hlen : p.length = m.ppb) (hp : ∀ v ∈ p, v < 2 ^ m.bpp) :
    unpackBy T m (packBy T m p) = p := by
  refine List.ext_getElem ((length_unpackBy T m _).trans hlen.symm) fun k hk hk' => ?_
  have hget : p.getD k 0 = p[k] := List.getD_eq_getElem p 0 hk'
  have hback := unpackAtBy_packBy h (p := p) (hlen ▸ hk') (hget ▸ hp _ (List.getElem_mem hk'))
  rw [← List.getD_eq_getElem _ 0 hk, getD_unpackBy T _ (hlen ▸ hk'), hback, hget]

/-- R154 (b): each bit of the byte is put back where the table took it from. -/
theorem packBy_unpackBy (h : T.Bijective) (m : GMode) (b : Byte) : packBy T m (unpackBy T m b) = b := by
  refine BitVec.eq_of_getLsbD_eq fun i hi => ?_
  obtain ⟨k, hk, j, hj, rfl⟩ := exists_pos_eq_of_bijective h m hi
  rw [packBy_getLsbD_pos h _ hk hj, getD_unpackBy T b hk, unpackAtBy_testBit T m b k hj]

/-- R154 (c): the one index list that packs to a byte is its unpacking. -/
theorem existsUnique_packBy_eq (h : T.Bijective) (m : GMode) (b : Byte) :
    ∃! p : List Nat, (p.length = m.ppb ∧ ∀ v ∈ p, v < 2 ^ m.bpp) ∧ packBy T m p = b := by
  refine ⟨unpackBy T m b, ⟨⟨length_unpackBy T m b, fun _ => lt_of_mem_unpackBy⟩, packBy_unpackBy h m b⟩, ?_⟩
  rintro p ⟨⟨hlen, hp⟩, rfl⟩
  exact (unpackBy_packBy h hlen hp).symm

end

/-- Settles O24: the three identities hold for every bijective table, and the configured one is bijective. -/
theorem packUnpackBijection : Obligations.PackUnpackBijection :=
  ⟨fun m => ⟨fun _ => unpackBy_packBy pos_bijective, packBy_unpackBy pos_bijective m,
      existsUnique_packBy_eq pos_bijective m⟩,
    fun _ m h => ⟨fun _ => unpackBy_packBy h, packBy_unpackBy h m, existsUnique_packBy_eq h m⟩,
    pos_bijective, rfl, rfl⟩

end Sys2Proof.Machine
end

section
/-! PROOFS. The commands PACK and UNPACK (41_pixel_packer.md R155, R156): their prechecks, and the nibbles they read and
write. -/

namespace Sys2Proof.Machine

/-! ### PACK -/

theorem mem_nibbles {m : GMode} {v : Word} {x : Nat} :
    x ∈ nibbles m v ↔ ∃ k < m.ppb, (v.toNat >>> (4 * k)) % 16 = x := by
  simp [nibbles]

/-- PACK's precheck on the indices fails when one of them is not below the bound of the mode. -/
theorem exec_pack_of_index_ge {s : State} {m : GMode} (hm : s.gmode? = some m)
    (h : ∃ x ∈ nibbles m s.arg0, 2 ^ m.bpp ≤ x) :
    exec .pack s = .next (s.raise .indexOutOfRange (encode .pack)) := by
  have hany : (nibbles m s.arg0).any (fun p => 2 ^ m.bpp ≤ p) = true := by simpa using h
  exact (withMode_of_mode hm).trans (guarded_of_fail (if_pos hany))

theorem exec_pack_of_index_lt {s : State} {m : GMode} (hm : s.gmode? = some m)
    (h : ∀ x ∈ nibbles m s.arg0, x < 2 ^ m.bpp) :
    exec .pack s = .next (s.clearReport.setRes (zext32 (pack m (nibbles m s.arg0))) 0) := by
  have hany : (nibbles m s.arg0).any (fun p => 2 ^ m.bpp ≤ p) = false := by simpa using h
  exact (withMode_of_mode hm).trans (guarded_of_pass (firstFailure_eq_none.2 (List.forall_mem_singleton.2 hany)))

/-- Settles O25: the nibbles of the group are the list that the precheck tests and the operation packs. -/
theorem packPacksArgNibbles : Obligations.PackPacksArgNibbles := by
  refine ⟨rfl, fun s => ⟨fun h3 => withMode_of_reserved (gmode_eq_none.2 h3), fun m hm => ⟨?raises, ?packs⟩⟩⟩
  case raises =>
    rintro ⟨k, hk, hge⟩
    exact exec_pack_of_index_ge hm ⟨_, mem_nibbles.2 ⟨k, hk, rfl⟩, hge⟩
  case packs =>
    intro hlt
    refine exec_pack_of_index_lt hm fun x hx => ?_
    obtain ⟨k, hk, rfl⟩ := mem_nibbles.1 hx
    exact hlt k hk

/-! ### UNPACK -/

theorem exec_unpack_of_mode {s : State} {m : GMode} (hm : s.gmode? = some m) :
    exec .unpack s =
      .next (s.clearReport.setRes (BitVec.ofNat 32 (fromNibbles (unpack m (s.arg0.setWidth 8)))) 0) :=
  withMode_of_mode hm

/-- UNPACK's result is the number whose digits to base 16 are the indices. -/
theorem fromNibbles_eq_ofDigits (p : List Nat) : fromNibbles p = Nat.ofDigits 16 p := by
  have hshift : (fun k v : Nat => v <<< (4 * k)) = fun k v => v * 16 ^ k := by
    funext k v
    rw [Nat.shiftLeft_eq, pow_mul]
    rfl
  rw [fromNibbles, hshift, Nat.ofDigits_eq_sum_mapIdx]

theorem fromNibbles_cons (v : Nat) (p : List Nat) : fromNibbles (v :: p) = v + 16 * fromNibbles p := by
  rw [fromNibbles_eq_ofDigits, fromNibbles_eq_ofDigits, Nat.ofDigits_cons]

theorem fromNibbles_lt {p : List Nat} (hp : ∀ v ∈ p, v < 16) (hlen : p.length ≤ 8) : fromNibbles p < 2 ^ 32 := by
  calc fromNibbles p = Nat.ofDigits 16 p := fromNibbles_eq_ofDigits p
    _ < 16 ^ p.length := Nat.ofDigits_lt_base_pow_length (by decide) hp
    _ ≤ 16 ^ 8 := Nat.pow_le_pow_right (by decide) hlen

/-- Nibble `k` of the result is index `k`, and 0 beyond the last index. -/
theorem nibble_fromNibbles {p : List Nat} (hp : ∀ v ∈ p, v < 16) (k : Nat) :
    (fromNibbles p >>> (4 * k)) % 16 = p.getD k 0 := by
  induction p generalizing k with
  | nil => simp [fromNibbles]
  | cons v p ih =>
    obtain ⟨hv, hp⟩ := List.forall_mem_cons.1 hp
    cases k with
    | zero => rw [fromNibbles_cons, Nat.mul_zero, Nat.shiftRight_zero, List.getD_cons_zero]; omega
    | succ k =>
      have hshift : (v + 16 * fromNibbles p) >>> 4 = fromNibbles p := by
        rw [Nat.shiftRight_eq_div_pow]; omega
      rw [fromNibbles_cons, Nat.mul_succ, Nat.add_comm (4 * k), Nat.shiftRight_add, hshift, ih hp, List.getD_cons_succ]

/-- In every mode the indices of a byte are nibbles, at most eight of them. -/
theorem lt_16_of_mem_unpack {m : GMode} {b : Byte} {v : Nat} (hv : v ∈ unpack m b) : v < 16 :=
  (lt_of_mem_unpackBy hv).trans_le (by cases m <;> decide)

theorem length_unpack_le (m : GMode) (b : Byte) : (unpack m b).length ≤ 8 :=
  (length_unpackBy _ m b).trans_le (by cases m <;> decide)

theorem getD_unpack (m : GMode) (b : Byte) (k : Nat) :
    (unpack m b).getD k 0 = if k < m.ppb then unpackAt m b k else 0 := by
  split
  case isTrue hk => exact getD_unpackBy _ b hk
  case isFalse hk => exact List.getD_eq_default _ _ ((length_unpackBy _ m b).trans_le (Nat.not_lt.1 hk))

/-- Settles O26: the indices fit in RES0, so each of its nibbles is one of them or 0. -/
theorem unpackGivesNibbles : Obligations.UnpackGivesNibbles := by
  refine ⟨rfl, fun s => ⟨fun h3 => withMode_of_reserved (gmode_eq_none.2 h3), fun m hm =>
    ⟨_, exec_unpack_of_mode hm, fun k _ => ?_⟩⟩⟩
  have hnib : ∀ v ∈ unpack m (s.arg0.setWidth 8), v < 16 := fun _ => lt_16_of_mem_unpack
  rw [BitVec.toNat_ofNat, Nat.mod_eq_of_lt (fromNibbles_lt hnib (length_unpack_le m _)), nibble_fromNibbles hnib,
    getD_unpack, BitVec.setWidth_eq_extractLsb' (by decide)]

end Sys2Proof.Machine
end

section
/-! PROOFS. The screen's byte layout (42_screen_addressing.md R171 to R176) and its inverse (R180, R182, R183). In both
bindings a bank is eight strips of BANK_STRIDE bytes, and a strip holds a number of lines of LINEWIDTH bytes and a
gap; the bindings differ only in which strip and line a pixel row takes. So one argument serves both. -/

namespace Sys2Proof.Machine

section
variable {c : Screen}

/-! ### Strips and lines -/

/-- How many lines a strip holds: the rows of a band, or one line of each band. -/
def Screen.stripLines (c : Screen) : Nat :=
  match c.binding with
  | .literal => 8
  | .interleaved => 0x800 / c.lineWidth

/-- The strip of a pixel row of a bank: its band, or its row inside the band (R172). -/
def Screen.strip (c : Screen) (r : Nat) : Nat :=
  match c.binding with
  | .literal => r / 8
  | .interleaved => r % 8

/-- The line of a pixel row inside its strip (R172). -/
def Screen.line (c : Screen) (r : Nat) : Nat :=
  match c.binding with
  | .literal => r % 8
  | .interleaved => r / 8

/-- The pixel row of a bank that takes a line of a strip, which is what R180 computes. -/
def Screen.rowOf (c : Screen) (strip line : Nat) : Nat :=
  match c.binding with
  | .literal => strip * 8 + line
  | .interleaved => line * 8 + strip

theorem Screen.rowsPerBank_eq (c : Screen) : c.rowsPerBank = 8 * c.stripLines := by
  unfold Screen.rowsPerBank Screen.stripLines
  cases c.binding <;> rfl

theorem Screen.off1_eq (c : Screen) (g r : Nat) : c.off1 g r = c.strip r * 0x800 + (c.line r * c.lineWidth + g) := by
  unfold Screen.off1 Screen.strip Screen.line
  cases c.binding <;> exact Nat.add_assoc ..

/-- The lines of a strip fit in it (R171). -/
theorem Screen.stripLines_mul_le (h : c.cfgOk = true) : c.stripLines * c.lineWidth ≤ 0x800 := by
  obtain ⟨-, hlit, -⟩ := Screen.cfgOk_iff.1 h
  unfold Screen.stripLines
  cases hb : c.binding with
  | literal => exact hlit hb
  | interleaved => exact Nat.div_mul_le_self 0x800 c.lineWidth

/-- A row of the bank takes a line of one of the eight strips. -/
theorem Screen.strip_line_lt {r : Nat} (h : r < c.rowsPerBank) : c.strip r < 8 ∧ c.line r < c.stripLines := by
  rw [Screen.rowsPerBank_eq] at h
  cases hb : c.binding <;> simp only [Screen.stripLines, Screen.strip, Screen.line, hb] at h ⊢ <;> omega

theorem Screen.rowOf_strip_line (c : Screen) (r : Nat) : c.rowOf (c.strip r) (c.line r) = r := by
  unfold Screen.rowOf Screen.strip Screen.line
  cases c.binding <;> exact Nat.div_add_mod' r 8

section
variable {i k : Nat} (hi : i < 8) (hk : k < c.stripLines)
include hi hk

theorem Screen.rowOf_lt : c.rowOf i k < c.rowsPerBank := by
  rw [Screen.rowsPerBank_eq]
  cases hb : c.binding <;> simp only [Screen.stripLines, Screen.rowOf, hb] at hk ⊢ <;> omega

theorem Screen.strip_line_rowOf : c.strip (c.rowOf i k) = i ∧ c.line (c.rowOf i k) = k := by
  cases hb : c.binding <;>
    simp only [Screen.stripLines, Screen.strip, Screen.line, Screen.rowOf, hb] at hk ⊢ <;>
    omega

end

/-! ### The four parts of an offset -/

/-- A quotient and a remainder below the divisor are those of the number they make up. -/
theorem div_mod_of_lt {d q r : Nat} (h : r < d) : (q * d + r) / d = q ∧ (q * d + r) % d = r :=
  (Nat.div_mod_unique (Nat.zero_lt_of_lt h)).2 ⟨by rw [Nat.mul_comm, Nat.add_comm], h⟩

/-- The bank, strip, line and byte column of an in-range position are read back from its offset by division. -/
theorem Screen.offset_parts (h : c.cfgOk = true) {g y : Nat} (hg : g < c.lineWidth) (hy : y < c.rows) :
    c.offset g y / 0x4000 = y / c.rowsPerBank ∧
    c.offset g y % 0x4000 / 0x800 = c.strip (y % c.rowsPerBank) ∧
    c.offset g y % 0x4000 % 0x800 / c.lineWidth = c.line (y % c.rowsPerBank) ∧
    c.offset g y % 0x4000 % 0x800 % c.lineWidth = g := by
  have hr : y % c.rowsPerBank < c.rowsPerBank := Nat.mod_lt y (Nat.pos_of_mul_pos_right (Nat.zero_lt_of_lt hy))
  have hline : c.line (y % c.rowsPerBank) * c.lineWidth + g < 0x800 :=
    calc c.line (y % c.rowsPerBank) * c.lineWidth + g
        < (c.line (y % c.rowsPerBank) + 1) * c.lineWidth := by rw [Nat.succ_mul]; omega
      _ ≤ c.stripLines * c.lineWidth := Nat.mul_le_mul_right _ (Screen.strip_line_lt hr).2
      _ ≤ 0x800 := Screen.stripLines_mul_le h
  obtain ⟨hbank, hin⟩ := div_mod_of_lt (q := y / c.rowsPerBank) (Screen.off1_lt h hg hr)
  rw [← Screen.offset_eq] at hbank hin
  rw [Screen.off1_eq] at hin
  obtain ⟨hstrip, hplace⟩ := div_mod_of_lt (q := c.strip (y % c.rowsPerBank)) hline
  obtain ⟨hk, hcol⟩ := div_mod_of_lt (q := c.line (y % c.rowsPerBank)) hg
  change _ % 0x4000 = _ at hin
  rw [hin, hstrip, hplace]
  exact ⟨hbank, rfl, hk, hcol⟩

/-- Where a line of a strip of a bank holds a position, that position is in range and lies there. -/
theorem Screen.offset_of_parts {b i k g : Nat} (hb : b < c.banks) (hi : i < 8) (hk : k < c.stripLines)
    (hg : g < c.lineWidth) :
    c.inRange g (b * c.rowsPerBank + c.rowOf i k) = true ∧
    c.offset g (b * c.rowsPerBank + c.rowOf i k) = b * 0x4000 + (i * 0x800 + (k * c.lineWidth + g)) := by
  have hrow : c.rowOf i k < c.rowsPerBank := Screen.rowOf_lt hi hk
  constructor
  · refine Screen.inRange_iff.2 ⟨hg, ?_⟩
    calc b * c.rowsPerBank + c.rowOf i k
        < (b + 1) * c.rowsPerBank := by rw [Nat.succ_mul]; omega
      _ ≤ c.banks * c.rowsPerBank := Nat.mul_le_mul_right _ hb
      _ = c.rows := Nat.mul_comm ..
  · obtain ⟨hbank, hr⟩ := div_mod_of_lt (q := b) hrow
    obtain ⟨hstrip, hline⟩ := Screen.strip_line_rowOf hi hk
    rw [Screen.offset_eq, hbank, hr, Screen.off1_eq, hstrip, hline]
    rfl

/-! ### The inverse -/

/-- The hardware address of a byte is the 16-bit sum of ORIGIN and its offset (R177). -/
theorem toNat_address (o : Addr16) (n : Nat) :
    (o + BitVec.ofNat 16 n).toNat = (o.toNat + n) % 2 ^ Config.addrBits := by
  rw [BitVec.toNat_add, BitVec.toNat_ofNat, Nat.add_mod_mod]
  rfl

/-- The address of an in-range position is as far from ORIGIN as its offset says: two banks do not reach round the
address space. -/
theorem Screen.toNat_address_sub_origin (h : c.cfgOk = true) (hbanks : c.banks ≤ 2) {g y : Nat}
    (hin : c.inRange g y = true) : (c.origin + BitVec.ofNat 16 (c.offset g y) - c.origin).toNat = c.offset g y := by
  obtain ⟨hg, hy⟩ := Screen.inRange_iff.1 hin
  have hlt : c.offset g y < 0x4000 * c.banks := Screen.offset_lt h hg hy
  rw [BitVec.add_comm, BitVec.add_sub_cancel, BitVec.toNat_ofNat]
  omega

/-- R180 in one form for both bindings: the gap is what follows the last line of a strip. -/
theorem Screen.inverse_eq (m : GMode) {a : Addr16} {rel : Nat} (hrel : (a - c.origin).toNat = rel) :
    c.inverse m a =
      if 0x4000 * c.banks ≤ rel ∨ c.stripLines ≤ rel % 0x4000 % 0x800 / c.lineWidth then ⟨false, 0, 0⟩
      else ⟨true, rel % 0x4000 % 0x800 % c.lineWidth * m.ppb,
        rel / 0x4000 * c.rowsPerBank +
          c.rowOf (rel % 0x4000 / 0x800) (rel % 0x4000 % 0x800 / c.lineWidth)⟩ := by
  have hstrip : ¬ 8 ≤ rel % 0x4000 / 0x800 := by omega
  unfold Screen.inverse Screen.stripLines Screen.rowOf
  cases hb : c.binding <;>
    simp only [Config.bankSize, Config.bankStride, Config.bandLines, hrel, hstrip, false_or, ite_or, Nat.add_assoc]

/-- The inverse finds every in-range position from its address (R182, first half). -/
theorem Screen.inverse_address (h : c.cfgOk = true) (hbanks : c.banks ≤ 2) (m : GMode) {g y : Nat}
    (hin : c.inRange g y = true) :
    c.inverse m (c.origin + BitVec.ofNat 16 (c.offset g y)) = ⟨true, g * m.ppb, y⟩ := by
  obtain ⟨hg, hy⟩ := Screen.inRange_iff.1 hin
  have hr : y % c.rowsPerBank < c.rowsPerBank := Nat.mod_lt y (Nat.pos_of_mul_pos_right (Nat.zero_lt_of_lt hy))
  have hok : ¬ (0x4000 * c.banks ≤ c.offset g y ∨ c.stripLines ≤ c.line (y % c.rowsPerBank)) :=
    not_or.2 ⟨Nat.not_le.2 (Screen.offset_lt h hg hy), Nat.not_le.2 (Screen.strip_line_lt hr).2⟩
  obtain ⟨hbank, hstrip, hline, hcol⟩ := Screen.offset_parts h hg hy
  rw [Screen.inverse_eq m (Screen.toNat_address_sub_origin h hbanks hin), hbank, hstrip, hline, hcol, if_neg hok,
    Screen.rowOf_strip_line, Nat.div_add_mod']

/-- The inverse answers ok with a position whose byte lies at the address, or it answers that there is none. -/
theorem Screen.inverse_cases (h : c.cfgOk = true) (m : GMode) (a : Addr16) :
    (∃ g y, c.inRange g y = true ∧ a = c.origin + BitVec.ofNat 16 (c.offset g y) ∧
      c.inverse m a = ⟨true, g * m.ppb, y⟩) ∨
    c.inverse m a = ⟨false, 0, 0⟩ := by
  obtain ⟨rel, hrel⟩ : ∃ rel, (a - c.origin).toNat = rel := ⟨_, rfl⟩
  rw [Screen.inverse_eq m hrel]
  split
  case isTrue => exact .inr rfl
  case isFalse hok =>
    obtain ⟨hlt, hline⟩ := not_or.1 hok
    have hbank : rel / 0x4000 < c.banks := by omega
    have hstrip : rel % 0x4000 / 0x800 < 8 := by omega
    have hcol : rel % 0x4000 % 0x800 % c.lineWidth < c.lineWidth := Nat.mod_lt _ (Screen.cfgOk_iff.1 h).1
    obtain ⟨hin, hoff⟩ := Screen.offset_of_parts hbank hstrip (Nat.not_le.1 hline) hcol
    refine .inl ⟨_, _, hin, ?_, rfl⟩
    rw [hoff, Nat.div_add_mod', Nat.div_add_mod', Nat.div_add_mod', ← hrel, BitVec.ofNat_toNat, BitVec.setWidth_eq,
      BitVec.add_comm, BitVec.sub_add_cancel]

/-- R183: two in-range positions with one offset have one address, where the inverse finds both. -/
theorem Screen.offset_inj (h : c.cfgOk = true) (hbanks : c.banks ≤ 2) {g y g' y' : Nat} (hin : c.inRange g y = true)
    (hin' : c.inRange g' y' = true) (heq : c.offset g y = c.offset g' y') : g = g' ∧ y = y' := by
  have hinv := Screen.inverse_address h hbanks .m0 hin
  rw [heq, Screen.inverse_address h hbanks .m0 hin', Translation.mk.injEq] at hinv
  obtain ⟨-, hx, hy⟩ := hinv
  exact ⟨Nat.eq_of_mul_eq_mul_right (by decide) hx.symm, hy.symm⟩

/-- Forward answers the address that the inverse was asked for (R182, second half). -/
theorem Screen.forward_of_inverse (h : c.cfgOk = true) (hbanks : c.banks ≤ 2) {m : GMode} {a : Addr16} {x y : Nat}
    (hinv : c.inverse m a = ⟨true, x, y⟩) : c.forward m x y = ⟨true, (a - c.origin).toNat, a.toNat⟩ := by
  rcases Screen.inverse_cases h m a with ⟨g, y', hin, ha, hok⟩ | hout
  case inr => simp [hout] at hinv
  case inl =>
    rw [hok, Translation.mk.injEq] at hinv
    obtain ⟨-, rfl, rfl⟩ := hinv
    have hppb : 0 < m.ppb := by cases m <;> decide
    have hg : g * m.ppb / m.ppb = g := Nat.mul_div_cancel g hppb
    rw [Screen.forward_of_inRange (hg.symm ▸ hin), hg, ha, Screen.toNat_address_sub_origin h hbanks hin,
      toNat_address]

end

/-! ### The offset formula in each binding -/

theorem Screen.offset_of_literal (c : Screen) (hb : c.binding = .literal) (g y : Nat) :
    c.offset g y = y / 64 * 0x4000 + y % 64 / 8 * 0x800 + y % 8 * c.lineWidth + g := by
  have hrow : y % 64 % 8 = y % 8 := Nat.mod_mod_of_dvd y (by decide)
  simp only [Screen.offset_eq, Screen.rowsPerBank, Screen.off1, hb, Config.bandLines, Config.bankSize,
    Config.bankStride, Nat.reduceDiv, Nat.reduceMul, hrow, Nat.add_assoc]

theorem Screen.offset_of_interleaved (c : Screen) (hb : c.binding = .interleaved) (g y : Nat) :
    c.offset g y = y / (8 * (0x800 / c.lineWidth)) * 0x4000 + y % (8 * (0x800 / c.lineWidth)) % 8 * 0x800 +
      y % (8 * (0x800 / c.lineWidth)) / 8 * c.lineWidth + g := by
  simp only [Screen.offset_eq, Screen.rowsPerBank, Screen.off1, hb, Config.bandLines, Config.bankSize,
    Config.bankStride, Nat.add_assoc]

/-! ### The statements -/

theorem State.screen_banks_le (s : State) : s.screen.banks ≤ 2 := by
  rcases s.screen_banks with h | h <;> omega

/-- Settles O27: the configuration check and the range are those of the model's screen, the rows and the offset are
R173 and R176 in each binding, and the bound is that of the banks. -/
theorem screenLayout : Obligations.ScreenLayout := by
  intro s
  refine ⟨Screen.cfgOk_iff, ?rows, fun g y => ⟨Screen.inRange_iff, ?literal, ?interleaved, ?bound⟩⟩
  case rows =>
    unfold Screen.rows Screen.rowsPerBank State.screen
    cases s.binding <;> rfl
  case literal => exact fun hb => s.screen.offset_of_literal hb g y
  case interleaved => exact fun hb => s.screen.offset_of_interleaved hb g y
  case bound =>
    intro hcfg hin
    obtain ⟨hg, hy⟩ := Screen.inRange_iff.1 hin
    exact Screen.offset_lt hcfg hg hy

/-- Settles O28: the inverse separates the positions. -/
theorem screenOffsetInjective : Obligations.ScreenOffsetInjective :=
  fun s _ _ _ _ hcfg => Screen.offset_inj hcfg s.screen_banks_le

/-- Settles O29: the two halves are `Screen.inverse_address` and `Screen.forward_of_inverse`. -/
theorem screenInverse : Obligations.ScreenInverse :=
  fun s m hcfg => ⟨fun _ _ => Screen.inverse_address hcfg s.screen_banks_le m,
    fun _ _ _ => Screen.forward_of_inverse hcfg s.screen_banks_le⟩

end Sys2Proof.Machine
end

section
/-! PROOFS. The commands SAFWD and SAINV (42_screen_addressing.md R178, R179): their prechecks, and the report of what
forward and inverse answer. -/

namespace Sys2Proof.Machine

/-! ### The prechecks -/

section
variable {s : State} {m : GMode} (hm : s.gmode? = some m)
include hm

/-- Both commands fail on an SA configuration that is not legal. -/
theorem exec_safwd_of_not_cfgOk (h : s.screen.cfgOk = false) :
    exec .safwd s = .next (s.raise .badConfig (encode .safwd)) :=
  (withMode_of_mode hm).trans (guarded_of_fail (if_pos (by rw [h]; rfl)))

theorem exec_sainv_of_not_cfgOk (h : s.screen.cfgOk = false) :
    exec .sainv s = .next (s.raise .badConfig (encode .sainv)) :=
  (withMode_of_mode hm).trans (guarded_of_fail (if_pos (by rw [h]; rfl)))

/-- With a legal one they report what forward and inverse answer. -/
theorem exec_safwd_of_cfgOk (h : s.screen.cfgOk = true) :
    exec .safwd s =
      .next (s.clearReport.reportTranslation (s.screen.forward m s.arg0.toNat s.arg1.toNat)) :=
  (withMode_of_mode hm).trans (guarded_of_pass (if_neg (by rw [h]; decide)))

theorem exec_sainv_of_cfgOk (h : s.screen.cfgOk = true) :
    exec .sainv s =
      .next (s.clearReport.reportTranslation (s.screen.inverse m (s.arg0.extractLsb' 0 16))) := by
  rw [extractLsb'_zero_eq_setWidth]
  exact (withMode_of_mode hm).trans (guarded_of_pass (if_neg (by rw [h]; decide)))

end

/-! ### The reports -/

/-- An answer that is out of range is one AddressOutOfRange event, in FLAGS, ERR.EVT and AOOR_CNT (R177, R180;
60_exceptions.md R287, R289). -/
theorem State.clearReport_reportTranslation_out (s : State) (x y : Nat) :
    s.clearReport.reportTranslation ⟨false, x, y⟩ = { s with
      err := 0x00020000, flags := s.flags ||| 0x002
      aoorCnt := BitVec.ofNat 32 (min (s.aoorCnt.toNat + 1) (2 ^ 32 - 1))
      res0 := BitVec.ofNat 32 x, res1 := BitVec.ofNat 32 y } := by
  have hbit : Event.addressOutOfRange.err.flagBit = 0x002 := by decide
  have hevt : (0 : Word) ||| Event.addressOutOfRange.evtBit = 0x00020000 := by decide
  rw [State.reportTranslation_out, ← hbit, ← hevt]
  rfl

/-! ### The statements -/

/-- Settles O30: SAFWD reports forward's answer for the coordinate in ARG0 and ARG1. -/
theorem safwdTranslates : Obligations.SafwdTranslates := by
  refine ⟨rfl, fun s => ⟨fun h3 => withMode_of_reserved (gmode_eq_none.2 h3), fun m hm =>
    ⟨exec_safwd_of_not_cfgOk hm, fun hcfg => ⟨fun hin => ?inside, fun hout => ?outside⟩⟩⟩⟩
  case inside =>
    rw [exec_safwd_of_cfgOk hm hcfg, Screen.forward_of_inRange hin, State.reportTranslation_ok, ← toNat_address,
      BitVec.ofNat_toNat]
    rfl
  case outside =>
    rw [exec_safwd_of_cfgOk hm hcfg, Screen.forward_of_outside hout, State.clearReport_reportTranslation_out,
      BitVec.ofNat_toNat]
    rfl

/-- Settles O31: SAINV reports inverse's answer, which finds the position at the address exactly when there is one. -/
theorem sainvFindsTheCoordinate : Obligations.SainvFindsTheCoordinate := by
  refine ⟨rfl, fun s => ⟨fun h3 => withMode_of_reserved (gmode_eq_none.2 h3), fun m hm =>
    ⟨exec_sainv_of_not_cfgOk hm, fun hcfg => ⟨fun g y hin haddr => ?found, fun hnone => ?missing⟩⟩⟩⟩
  case found =>
    have hinv : s.screen.inverse m (s.origin + BitVec.ofNat 16 (s.screen.offset g y)) = ⟨true, g * m.ppb, y⟩ :=
      Screen.inverse_address hcfg s.screen_banks_le m hin
    rw [exec_sainv_of_cfgOk hm hcfg, haddr, hinv, State.reportTranslation_ok]
    rfl
  case missing =>
    rcases Screen.inverse_cases hcfg m (s.arg0.extractLsb' 0 16) with ⟨g, y, hin, haddr, -⟩ | hout
    · exact absurd haddr (hnone g y hin)
    · rw [exec_sainv_of_cfgOk hm hcfg, hout, State.clearReport_reportTranslation_out]
      rfl

end Sys2Proof.Machine
end

section
/-! PROOFS. The prechecks of the four frame commands (43_frame_codec.md R190): each list is its BadConfig tests, in DIFF
then SizeMismatch, and then its InvalidDimensions tests, so the first group that does not pass decides the error. -/

namespace Sys2Proof.Machine

/-! ### Groups of tests with one error -/

/-- Every test of a group reports the same error. -/
abbrev AllReport (e : Err) (cs : List Check) : Prop := ∀ c ∈ cs, c.2 = e

/-- The tests of a longer list are looked at only when those before them pass. -/
theorem firstFailure_append (cs ds : List Check) :
    firstFailure (cs ++ ds) = (firstFailure cs).or (firstFailure ds) := by
  induction cs with
  | nil => rfl
  | cons c cs ih =>
    obtain ⟨failed, e⟩ := c
    cases failed with
    | true => rfl
    | false => exact ih

theorem firstFailure_of_not_pass {cs : List Check} {e : Err} (he : AllReport e cs) (h : firstFailure cs ≠ none) :
    firstFailure cs = some e := by
  obtain ⟨e', hf⟩ := Option.ne_none_iff_exists'.1 h
  obtain ⟨pre, post, rfl, -⟩ := firstFailure_eq_some hf
  have he' : e' = e := he (true, e') (by simp)
  rw [hf, he']

/-- A group that does not pass decides over the tests after it. -/
theorem firstFailure_append_of_not_pass {cs : List Check} {e : Err} (he : AllReport e cs)
    (h : firstFailure cs ≠ none) (ds : List Check) : firstFailure (cs ++ ds) = some e := by
  rw [firstFailure_append, firstFailure_of_not_pass he h, Option.some_or]

/-- After a group that passes, the next one decides when the list as a whole does not pass. -/
theorem firstFailure_append_of_pass {cs ds : List Check} {e : Err} (he : AllReport e ds)
    (hcs : firstFailure cs = none) (h : firstFailure (cs ++ ds) ≠ none) : firstFailure (cs ++ ds) = some e := by
  rw [firstFailure_append, hcs, Option.none_or] at h ⊢
  exact firstFailure_of_not_pass he h

/-! ### The groups of R190 -/

/-- Tests 2, 3 and 4 for the slots a command uses. -/
def State.configChecks (s : State) (m : GMode) (sls : List Slot) : List Check :=
  s.test2 m :: (sls.map s.test3 ++ [s.test4])

/-- Tests 6 to 9. -/
def State.sizeChecks (s : State) (m : GMode) : List Check := [s.test6 m, s.test7, s.test8 m, s.test9 m]

/-- Tests 6, 8, 9 and 10, which are those of DIFF. -/
def State.frameChecks (s : State) (m : GMode) : List Check := [s.test6 m, s.test8 m, s.test9 m, s.test10 m .a]

/-- Test 4 passes. -/
abbrev State.ScreenOk (s : State) : Prop := s.sprite = false → s.screen.cfgOk = true

theorem State.not_screenOk {s : State} : ¬ s.ScreenOk ↔ s.sprite = false ∧ s.screen.cfgOk = false := by
  rw [Classical.not_imp, Bool.not_eq_true]

section
variable {s : State} {m : GMode} {sl : Slot}

/-- The BadConfig tests pass for the slots a command uses, at least one. -/
theorem State.configChecks_pass {sls : List Slot} (hne : sls ≠ []) :
    firstFailure (s.configChecks m sls) = none ↔ (∀ sl ∈ sls, s.PaletteOk m sl) ∧ s.ScreenOk := by
  obtain ⟨used, hused⟩ := List.exists_mem_of_ne_nil sls hne
  rw [State.configChecks, firstFailure_eq_none, List.forall_mem_cons, List.forall_mem_append, List.forall_mem_map,
    List.forall_mem_singleton, State.test2_pass, State.test4_pass]
  simp only [State.test3_pass]
  constructor
  · rintro ⟨⟨hpos, hle⟩, hpal, hscreen⟩
    exact ⟨fun sl hsl => ⟨hpos, hle, hpal sl hsl⟩, hscreen⟩
  · rintro ⟨hpal, hscreen⟩
    obtain ⟨hpos, hle, -⟩ := hpal used hused
    exact ⟨⟨hpos, hle⟩, fun sl hsl => (hpal sl hsl).2.2, hscreen⟩

theorem State.configChecks_report (s : State) (m : GMode) (sls : List Slot) :
    AllReport .badConfig (s.configChecks m sls) := by
  refine List.forall_mem_cons.2 ⟨rfl, List.forall_mem_append.2 ⟨?_, List.forall_mem_singleton.2 rfl⟩⟩
  exact List.forall_mem_map.2 fun _ _ => rfl

theorem State.sizeChecks_report (s : State) (m : GMode) : AllReport .invalidDimensions (s.sizeChecks m) := by
  simp only [AllReport, State.sizeChecks, List.forall_mem_cons]
  exact ⟨rfl, rfl, rfl, rfl, nofun⟩

theorem State.frameChecks_report (s : State) (m : GMode) : AllReport .invalidDimensions (s.frameChecks m) := by
  simp only [AllReport, State.frameChecks, List.forall_mem_cons]
  exact ⟨rfl, rfl, rfl, rfl, nofun⟩

/-- Commands that test colours and palettes raise BadConfig for a slot's palette or for the SA configuration. -/
theorem guarded_configChecks_fail {sls : List Slot} (hne : sls ≠ [])
    (h : (∃ sl ∈ sls, ¬ s.PaletteOk m sl) ∨ ¬ s.ScreenOk) (w : Word) (ds : List Check) (op : State → State) :
    guarded w (s.configChecks m sls ++ ds) s op = .next (s.raise .badConfig w) := by
  have hfail : firstFailure (s.configChecks m sls) ≠ none := fun hpass => by
    obtain ⟨hpal, hscreen⟩ := (State.configChecks_pass hne).1 hpass
    rcases h with ⟨sl, hsl, hnot⟩ | hnot
    · exact hnot (hpal sl hsl)
    · exact hnot hscreen
  exact guarded_of_fail (firstFailure_append_of_not_pass (s.configChecks_report m sls) hfail ds)

/-- Once these tests pass, a command that is not accepted raises InvalidDimensions. -/
theorem guarded_sizeChecks_fail {sls : List Slot} (hne : sls ≠ []) (hpal : ∀ sl ∈ sls, s.PaletteOk m sl)
    (hscreen : s.ScreenOk) {ds : List Check} (hds : AllReport .invalidDimensions ds)
    (h : firstFailure (s.configChecks m sls ++ ds) ≠ none) (w : Word) (op : State → State) :
    guarded w (s.configChecks m sls ++ ds) s op = .next (s.raise .invalidDimensions w) :=
  guarded_of_fail (firstFailure_append_of_pass hds ((State.configChecks_pass hne).2 ⟨hpal, hscreen⟩) h)

/-! ### How each command fails -/

section
variable (hm : s.gmode? = some m)
include hm

theorem exec_encode_of_badConfig (h : ¬ s.PaletteOk m sl ∨ ¬ s.ScreenOk) :
    exec (.encodeFrame sl) s = .next (s.raise .badConfig (encode (.encodeFrame sl))) :=
  (withMode_of_mode hm).trans
    (guarded_configChecks_fail (List.cons_ne_nil sl []) (h.imp_left (by simpa using ·)) _ (s.sizeChecks m) _)

theorem exec_decode_of_badConfig (h : ¬ s.PaletteOk m sl ∨ ¬ s.ScreenOk) :
    exec (.decodeFrame sl) s = .next (s.raise .badConfig (encode (.decodeFrame sl))) :=
  (withMode_of_mode hm).trans (guarded_configChecks_fail (List.cons_ne_nil sl []) (h.imp_left (by simpa using ·)) _
    (s.sizeChecks m ++ [s.test10 m sl]) _)

theorem exec_diffi_of_badConfig (h : (¬ s.PaletteOk m .a ∨ ¬ s.PaletteOk m .b) ∨ ¬ s.ScreenOk) :
    exec .diffi s = .next (s.raise .badConfig (encode .diffi)) :=
  (withMode_of_mode hm).trans (guarded_configChecks_fail (List.cons_ne_nil Slot.a [.b])
    (h.imp_left (by simpa using ·)) _ (s.sizeChecks m) _)

theorem exec_diff_of_badConfig (h : ¬ s.ScreenOk) : exec .diff s = .next (s.raise .badConfig (encode .diff)) := by
  have hfail : s.test4.1 = true := by simpa using mt State.test4_pass.1 h
  exact (withMode_of_mode hm).trans (guarded_of_fail (if_pos hfail))

theorem exec_encode_of_not_accepts (hpal : s.PaletteOk m sl) (hscreen : s.ScreenOk) (h : ¬ s.EncodeAccepts m sl) :
    exec (.encodeFrame sl) s = .next (s.raise .invalidDimensions (encode (.encodeFrame sl))) :=
  (withMode_of_mode hm).trans (guarded_sizeChecks_fail (List.cons_ne_nil sl []) (List.forall_mem_singleton.2 hpal)
    hscreen (s.sizeChecks_report m) (mt (State.encodeChecks_pass hm).1 h) _ _)

theorem exec_decode_of_not_accepts (hpal : s.PaletteOk m sl) (hscreen : s.ScreenOk) (h : ¬ s.DecodeAccepts m sl) :
    exec (.decodeFrame sl) s = .next (s.raise .invalidDimensions (encode (.decodeFrame sl))) :=
  (withMode_of_mode hm).trans (guarded_sizeChecks_fail (List.cons_ne_nil sl []) (List.forall_mem_singleton.2 hpal)
    hscreen (List.forall_mem_append.2 ⟨s.sizeChecks_report m, List.forall_mem_singleton.2 rfl⟩)
    (mt (State.decodeChecks_pass hm).1 h) _ _)

theorem exec_diffi_of_not_accepts (ha : s.PaletteOk m .a) (hb : s.PaletteOk m .b) (hscreen : s.ScreenOk)
    (h : ¬ s.DiffiAccepts m) : exec .diffi s = .next (s.raise .invalidDimensions (encode .diffi)) :=
  (withMode_of_mode hm).trans (guarded_sizeChecks_fail (List.cons_ne_nil Slot.a [.b])
    (List.forall_mem_cons.2 ⟨ha, List.forall_mem_singleton.2 hb⟩) hscreen (s.sizeChecks_report m)
    (mt (State.diffiChecks_pass hm).1 h) _ _)

section
variable (hscreen : s.ScreenOk)
include hscreen

theorem exec_diff_of_sizeMismatch (h : s.fbLen.a ≠ s.fbLen.b) :
    exec .diff s = .next (s.raise .sizeMismatch (encode .diff)) := by
  have hpass : firstFailure [s.test4] = none :=
    firstFailure_eq_none.2 (List.forall_mem_singleton.2 (State.test4_pass.2 hscreen))
  have hfail : s.test5.1 = true := by simpa using mt State.test5_pass.1 h
  refine (withMode_of_mode hm).trans (guarded_of_fail ?_)
  exact (firstFailure_append [s.test4] (s.test5 :: s.frameChecks m)).trans (by rw [hpass]; exact if_pos hfail)

theorem exec_diff_of_not_accepts (heq : s.fbLen.a = s.fbLen.b) (h : ¬ s.DiffAccepts m) :
    exec .diff s = .next (s.raise .invalidDimensions (encode .diff)) := by
  have hpass : firstFailure [s.test4, s.test5] = none :=
    firstFailure_eq_none.2 (List.forall_mem_cons.2
      ⟨State.test4_pass.2 hscreen, List.forall_mem_singleton.2 (State.test5_pass.2 heq)⟩)
  exact (withMode_of_mode hm).trans (guarded_of_fail (firstFailure_append_of_pass (s.frameChecks_report m) hpass
    (mt (State.diffChecks_pass hm).1 h)))

end
end
end

/-! ### The statement -/

/-- Settles O32: MODE 3 fails before the lists, and in a list the first group that does not pass decides. -/
theorem frameCommandsRejectInOrder : Obligations.FrameCommandsRejectInOrder := by
  intro s
  simp only [← State.not_screenOk, not_not]
  refine ⟨fun h3 => ?reserved, fun m hm => ⟨fun sl => ⟨fun h => ?slotConfig, fun hpal hscreen => ?slotSize⟩,
    fun h => exec_diffi_of_badConfig hm (or_assoc.2 h), exec_diffi_of_not_accepts hm, exec_diff_of_badConfig hm,
    exec_diff_of_sizeMismatch hm, exec_diff_of_not_accepts hm⟩⟩
  case reserved =>
    have hm := gmode_eq_none.2 h3
    exact ⟨withMode_of_reserved hm, withMode_of_reserved hm,
      fun _ => ⟨withMode_of_reserved hm, withMode_of_reserved hm⟩⟩
  case slotConfig => exact ⟨exec_encode_of_badConfig hm h, exec_decode_of_badConfig hm h⟩
  case slotSize => exact ⟨exec_encode_of_not_accepts hm hpal hscreen, exec_decode_of_not_accepts hm hpal hscreen⟩

end Sys2Proof.Machine
end

section
/-! PROOFS. The pixel groups of an image (43_frame_codec.md R192, R193): the indices that a group packs, and its groups
in raster order as the look-ups of its pixels in image order. -/

namespace Sys2Proof.Machine

/-! ### The groups of an image, pixel by pixel -/

/-- The numbers below a product, row by row. -/
theorem flatMap_range_mul {α : Type} (f : Nat → α) (n d : Nat) :
    ((List.range n).flatMap fun q => (List.range d).map fun r => f (q * d + r)) = (List.range (n * d)).map f := by
  induction n with
  | zero => simp
  | succ n ih => simp [List.range_succ, List.flatMap_append, ih, Nat.succ_mul, List.range_add]

section
variable {s : State} {m : GMode} {sl : Slot}

/-- An image is groups of pixels without a rest where its width is a multiple of the group. -/
theorem State.modeWidth_mul_ppb (h : s.width.toNat % m.ppb = 0) : s.modeWidth m * m.ppb = s.width.toNat :=
  Nat.div_mul_cancel (Nat.dvd_of_mod_eq_zero h)

theorem State.FrameOk.width_mod_ppb (h : s.FrameOk m) : s.width.toNat % m.ppb = 0 := by
  obtain ⟨-, -, -, -, hwidth, -⟩ := h
  exact hwidth

/-- The groups in raster order look up every pixel of the image, in the order of the image memory. -/
theorem State.flatMap_group (h : s.width.toNat % m.ppb = 0) :
    ((s.positions m).flatMap fun p => s.group m sl p.1 p.2) =
      (List.range (s.height.toNat * s.width.toNat)).map fun i => s.lookup sl (s.imgAt sl i) := by
  have hrow (y : Nat) : ((List.range (s.modeWidth m)).flatMap fun g => s.group m sl g y) =
      (List.range s.width.toNat).map fun x => s.resolve? sl x y := by
    rw [← State.modeWidth_mul_ppb h]
    exact flatMap_range_mul (fun x => s.resolve? sl x y) _ _
  calc ((s.positions m).flatMap fun p => s.group m sl p.1 p.2)
      = (List.range s.height.toNat).flatMap fun y =>
          (List.range (s.modeWidth m)).flatMap fun g => s.group m sl g y := by
        simp only [State.positions, List.flatMap_assoc, List.flatMap_map]
    _ = (List.range s.height.toNat).flatMap fun y => (List.range s.width.toNat).map fun x => s.resolve? sl x y := by
        simp only [hrow]
    _ = (List.range (s.height.toNat * s.width.toNat)).map fun i => s.lookup sl (s.imgAt sl i) :=
        flatMap_range_mul (fun i => s.lookup sl (s.imgAt sl i)) _ _

/-- Packing an image misses once for each pixel whose look-up misses. -/
theorem State.imageMisses_eq (h : s.width.toNat % m.ppb = 0) :
    s.imageMisses m sl =
      (List.range (s.width.toNat * s.height.toNat)).countP fun i => s.lookup sl (s.imgAt sl i) == none := by
  calc s.imageMisses m sl
      = ((s.positions m).flatMap fun p => s.group m sl p.1 p.2).count none := List.count_flatMap.symm
    _ = (List.range (s.height.toNat * s.width.toNat)).countP fun i => s.lookup sl (s.imgAt sl i) == none := by
        rw [State.flatMap_group h, List.count, List.countP_map]
        rfl
    _ = _ := by rw [Nat.mul_comm]

/-! ### The indices a group packs -/

/-- The indices of a group, 0 for a pixel that misses (R192, 40_palette_index.md R142). -/
def State.groupIndices (s : State) (m : GMode) (sl : Slot) (g y : Nat) : List Nat :=
  (s.group m sl g y).map (·.getD 0)

theorem State.packGroup_eq (s : State) (m : GMode) (sl : Slot) (g y : Nat) :
    s.packGroup m sl g y = pack m (s.groupIndices m sl g y) := rfl

theorem State.length_groupIndices (s : State) (m : GMode) (sl : Slot) (g y : Nat) :
    (s.groupIndices m sl g y).length = m.ppb := by simp [State.groupIndices, State.group]

theorem State.getElem?_groupIndices {g y k : Nat} (hk : k < m.ppb) :
    (s.groupIndices m sl g y)[k]? =
      some ((s.lookup sl (s.imgAt sl (y * s.width.toNat + g * m.ppb + k))).getD 0) := by
  simp [State.groupIndices, State.group, State.resolve?, hk, Nat.add_assoc]

end

/-! ### The statement -/

/-- Settles O34: a group packs its look-ups, and the look-ups of all groups are those of all pixels. -/
theorem oneMissPerMissingPixel : Obligations.OneMissPerMissingPixel := by
  refine ⟨fun sl s m g y => ⟨s.groupIndices m sl g y, rfl, s.length_groupIndices m sl g y, fun k hk => ?indices⟩,
    fun sl s m hw => ?misses⟩
  case indices =>
    rw [State.getElem?_groupIndices hk]
    refine ⟨fun i hi hat hlow => ?_, fun hnone => ?_⟩
    · rw [State.lookup_eq_some.2 ⟨hi, hat, hlow⟩, Option.getD_some]
    · rw [State.lookup_eq_none.2 hnone, Option.getD_none]
  case misses =>
    rw [State.imageMisses_eq hw]
    refine List.countP_congr fun i _ => ?_
    rw [beq_iff_eq, decide_eq_true_eq, State.lookup_eq_none]

end Sys2Proof.Machine
end

section
/-! PROOFS. ENCODE (43_frame_codec.md R194, R198): where a group lies in a frame (20_memory.md R91, R92), that no two
groups share a byte, what each byte of the encoded frame holds, and which indices its groups unpack to. -/

namespace Sys2Proof.Machine

/-! ### Where a group lies -/

section
variable {s : State} (m : GMode)

theorem State.loc_of_sprite (h : s.sprite = true) (g y : Nat) : s.loc m g y = y * s.modeWidth m + g := if_pos h

theorem State.loc_of_addressed (h : s.sprite = false) (g y : Nat) : s.loc m g y = s.screen.offset g y :=
  if_neg (Bool.not_eq_true _ ▸ h)

theorem State.frameLen_of_sprite (h : s.sprite = true) : s.frameLen m = s.modeWidth m * s.height.toNat := if_pos h

theorem State.frameLen_of_addressed (h : s.sprite = false) : s.frameLen m = 0x4000 * (if s.overscan then 2 else 1) :=
  if_neg (Bool.not_eq_true _ ▸ h)

end

section
variable {s : State} {m : GMode} {sl : Slot}

/-- No two groups of an accepted frame lie at one byte. -/
theorem State.FrameOk.loc_inj (h : s.FrameOk m) {g y g' y' : Nat} (hg : g < s.modeWidth m) (hy : y < s.height.toNat)
    (hg' : g' < s.modeWidth m) (hy' : y' < s.height.toNat) (heq : s.loc m g y = s.loc m g' y') : g = g' ∧ y = y' := by
  obtain ⟨-, hcfg, -, -, -, -, hscreen⟩ := h
  cases hs : s.sprite with
  | true =>
    obtain ⟨hdiv, hmod⟩ := div_mod_of_lt (q := y) hg
    obtain ⟨hdiv', hmod'⟩ := div_mod_of_lt (q := y') hg'
    rw [State.loc_of_sprite m hs, State.loc_of_sprite m hs] at heq
    exact ⟨hmod.symm.trans (heq ▸ hmod'), hdiv.symm.trans (heq ▸ hdiv')⟩
  | false =>
    obtain ⟨hw, hh⟩ := hscreen hs
    rw [State.loc_of_addressed m hs, State.loc_of_addressed m hs] at heq
    exact Screen.offset_inj (hcfg hs) s.screen_banks_le (Screen.inRange_iff.2 ⟨hg.trans_le hw, hy.trans_le hh⟩)
      (Screen.inRange_iff.2 ⟨hg'.trans_le hw, hy'.trans_le hh⟩) heq

/-! ### What the encoded frame holds -/

@[simp] theorem State.encodeSlot_fb (s : State) (m : GMode) (sl : Slot) :
    (s.encodeSlot m sl).fb = s.fb.set sl (s.encodedFrame m sl) := rfl

@[simp] theorem State.encodeSlot_fbLen (s : State) (m : GMode) (sl : Slot) :
    (s.encodeSlot m sl).fbLen = s.fbLen.set sl (BitVec.ofNat 16 (s.frameLen m)) := rfl

theorem State.encodeSlot_fbAt (s : State) (m : GMode) (sl : Slot) (i : Nat) :
    (s.encodeSlot m sl).fbAt sl i = (s.encodedFrame m sl).read s.epoch (.fb sl) i := by
  simp only [State.fbAt, State.encodeSlot_fb, PerSlot.get_set_self]
  rfl

/-- A group's byte is its packed group: no other group is written there. -/
theorem State.FrameOk.encodeSlot_fbAt_loc (h : s.FrameOk m) {g y : Nat} (hg : g < s.modeWidth m)
    (hy : y < s.height.toNat) : (s.encodeSlot m sl).fbAt sl (s.loc m g y) = s.packGroup m sl g y := by
  have hsame : ∀ q ∈ s.positions m, s.loc m q.1 q.2 = s.loc m g y →
      s.packGroup m sl q.1 q.2 = s.packGroup m sl g y := fun q hq heq => by
    obtain ⟨hg', hy'⟩ := State.mem_positions.1 hq
    obtain ⟨hgeq, hyeq⟩ := h.loc_inj hg' hy' hg hy heq
    rw [hgeq, hyeq]
  have hget : (s.encodedFrame m sl).get? (s.loc m g y) = some (s.packGroup m sl g y) :=
    Memory.get?_foldl_set_of_mem (fun p : Nat × Nat => s.loc m p.1 p.2) _ (s.positions m) _ (g, y)
      (State.mem_positions.2 ⟨hg, hy⟩) hsame
  rw [State.encodeSlot_fbAt, Memory.read, hget, Option.getD_some]

/-- A byte of no group holds what the zero fill left. -/
theorem State.encodeSlot_fbAt_of_no_group {i : Nat}
    (h : ∀ g y, g < s.modeWidth m → y < s.height.toNat → s.loc m g y ≠ i) :
    (s.encodeSlot m sl).fbAt sl i =
      ((s.fb.get sl).fill (List.replicate (s.frameLen m) 0)).read s.epoch (.fb sl) i := by
  have hget : (s.encodedFrame m sl).get? i = ((s.fb.get sl).fill (List.replicate (s.frameLen m) 0)).get? i :=
    Memory.get?_foldl_set_of_ne _ _ _ _ fun p hp => by
      obtain ⟨hg, hy⟩ := State.mem_positions.1 hp
      exact h p.1 p.2 hg hy
  rw [State.encodeSlot_fbAt, Memory.read, hget, Memory.read]

theorem State.encodeSlot_fbAt_gap {i : Nat} (hi : i < s.frameLen m)
    (h : ∀ g y, g < s.modeWidth m → y < s.height.toNat → s.loc m g y ≠ i) :
    (s.encodeSlot m sl).fbAt sl i = 0 := by
  rw [State.encodeSlot_fbAt_of_no_group h, Memory.read_fill_lt _ _ _ _ (by rwa [List.length_replicate]),
    List.getElem_replicate]

theorem State.FrameOk.encodeSlot_fbAt_beyond (h : s.FrameOk m) {i : Nat} (hi : s.frameLen m ≤ i) :
    (s.encodeSlot m sl).fbAt sl i = s.fbAt sl i := by
  have hno : ∀ g y, g < s.modeWidth m → y < s.height.toNat → s.loc m g y ≠ i := fun g y hg hy =>
    ((h.loc_lt_frameLen hg hy).trans_le hi).ne
  rw [State.encodeSlot_fbAt_of_no_group hno, Memory.read_fill_ge _ _ _ _ (by rwa [List.length_replicate])]
  rfl

/-- FBLEN holds the length of an accepted frame without a cut. -/
theorem State.FrameOk.encodeSlot_fbLen_toNat (h : s.FrameOk m) :
    ((s.encodeSlot m sl).fbLen.get sl).toNat = s.frameLen m := by
  have hcap : s.frameLen m ≤ 0x8000 := h.frameLen_le
  rw [State.encodeSlot_fbLen, PerSlot.get_set_self, BitVec.toNat_ofNat, Nat.mod_eq_of_lt (by omega)]

/-! ### The indices of a packed group -/

/-- The index of a pixel is a palette position: a hit is one, and position 0 stands for a miss. -/
theorem State.PaletteOk.groupIndices_lt (h : s.PaletteOk m sl) {g y v : Nat} (hv : v ∈ s.groupIndices m sl g y) :
    v < (s.palLen.get sl).toNat := by
  obtain ⟨-, -, hpos, -⟩ := h
  obtain ⟨r, hr, rfl⟩ := List.mem_map.1 hv
  obtain ⟨k, -, rfl⟩ := List.mem_map.1 hr
  cases hlook : s.resolve? sl (g * m.ppb + k) y with
  | none => exact hpos
  | some i => exact (State.lookup_eq_some.1 hlook).1

/-- A packed group unpacks to its indices, which the prechecks keep within the mode's bound (R198). -/
theorem State.PaletteOk.unpack_packGroup (h : s.PaletteOk m sl) (g y : Nat) :
    unpack m (s.packGroup m sl g y) = s.groupIndices m sl g y := by
  have hbound : (s.palLen.get sl).toNat ≤ 2 ^ m.bpp := by
    obtain ⟨-, hcolours, -, hlen⟩ := h
    exact m.ncol_eq ▸ hlen.trans hcolours
  exact unpackBy_packBy pos_bijective (s.length_groupIndices m sl g y)
    fun v hv => (h.groupIndices_lt hv).trans_le hbound

/-! ### The statement -/

theorem exec_encode_of_accepts (h : s.EncodeAccepts m sl) :
    exec (.encodeFrame sl) s = .next (s.clearReport.encodeSlot m sl) := by
  have ⟨⟨hm, _⟩, _⟩ := h
  exact (withMode_of_mode hm).trans (guarded_of_pass ((State.encodeChecks_pass hm).2 h))

end

/-- Settles O33: an accepted ENCODE leaves `State.encodeSlot`, whose frame is described byte by byte. -/
theorem encodeWritesTheFrame : Obligations.EncodeWritesTheFrame := by
  refine ⟨rfl, rfl, fun s m g y => ⟨fun hs => ?sprite, fun hs => ?addressed⟩, fun sl s m h => ?writes⟩
  case sprite => exact ⟨State.loc_of_sprite m hs g y, State.frameLen_of_sprite m hs⟩
  case addressed => exact ⟨State.loc_of_addressed m hs g y, State.frameLen_of_addressed m hs⟩
  case writes =>
    have hok : s.clearReport.FrameOk m := h.1
    have hpal : s.PaletteOk m sl := h.2.1
    refine ⟨_, exec_encode_of_accepts h, ?frame, hok.encodeSlot_fbLen_toNat, fun g y hg hy => ?group,
      fun i hi hgap => State.encodeSlot_fbAt_gap (s := s.clearReport) hi hgap,
      fun i hi => hok.encodeSlot_fbAt_beyond hi⟩
    case frame =>
      rw [State.encodeSlot_fb, PerSlot.get_set_self]
      rfl
    case group =>
      have hbyte : (s.clearReport.encodeSlot m sl).fbAt sl (s.loc m g y) = s.packGroup m sl g y :=
        hok.encodeSlot_fbAt_loc hg hy
      rw [hbyte, hpal.unpack_packGroup]
      have ⟨_, _, _, hcolours⟩ := hpal
      exact ⟨rfl, fun v hv => ⟨hpal.groupIndices_lt hv, hcolours⟩⟩

end Sys2Proof.Machine
end

section
/-! PROOFS. DECODE (43_frame_codec.md R195), and that ENCODE and DECODE undo each other: on an image of palette colours
(R196), and on a frame of palette positions under distinct colours (R197). -/

namespace Sys2Proof.Machine

section
variable {s : State} {m : GMode} {sl : Slot}

/-! ### What DECODE writes -/

theorem exec_decode_of_accepts (h : s.DecodeAccepts m sl) :
    exec (.decodeFrame sl) s = .next (s.clearReport.decodeSlot m sl) := by
  have ⟨⟨⟨hm, _⟩, _⟩, _⟩ := h
  exact (withMode_of_mode hm).trans (guarded_of_pass ((State.decodeChecks_pass hm).2 h))

@[simp] theorem State.decodeSlot_img (s : State) (m : GMode) (sl : Slot) :
    (s.decodeSlot m sl).img =
      s.img.set sl ((s.img.get sl).fill ((s.frameIndices m sl).map (s.indexColour sl))) := rfl

theorem State.decodeSlot_imgAt (s : State) (m : GMode) (sl : Slot) (i : Nat) :
    (s.decodeSlot m sl).imgAt sl i =
      ((s.img.get sl).fill ((s.frameIndices m sl).map (s.indexColour sl))).read s.epoch (.img sl) i := by
  simp only [State.imgAt, State.decodeSlot_img, PerSlot.get_set_self]
  rfl

/-- The report registers have no part in what DECODE writes. -/
theorem State.decodeSlot_clearReport_imgAt (s : State) (m : GMode) (sl : Slot) (i : Nat) :
    (s.clearReport.decodeSlot m sl).imgAt sl i = (s.decodeSlot m sl).imgAt sl i := by
  rw [State.decodeSlot_imgAt, State.decodeSlot_imgAt]
  rfl

theorem State.length_frameColours (s : State) (m : GMode) (sl : Slot) :
    ((s.frameIndices m sl).map (s.indexColour sl)).length = s.width.toNat * s.height.toNat := by
  simp [State.frameIndices]

theorem State.pixel_lt (s : State) {x y : Nat} (hx : x < s.width.toNat) (hy : y < s.height.toNat) :
    y * s.width.toNat + x < s.width.toNat * s.height.toNat :=
  calc y * s.width.toNat + x
      < (y + 1) * s.width.toNat := by rw [Nat.succ_mul]; omega
    _ ≤ s.height.toNat * s.width.toNat := Nat.mul_le_mul_right _ hy
    _ = s.width.toNat * s.height.toNat := Nat.mul_comm ..

/-- A pixel is the colour of its index in the frame. -/
theorem State.decodeSlot_imgAt_pixel {x y : Nat} (hx : x < s.width.toNat) (hy : y < s.height.toNat) :
    (s.decodeSlot m sl).imgAt sl (y * s.width.toNat + x) = s.indexColour sl (s.frameIndex m sl x y) := by
  obtain ⟨hdiv, hmod⟩ := div_mod_of_lt (q := y) hx
  rw [State.decodeSlot_imgAt, Memory.read_fill_lt _ _ _ _ (s.length_frameColours m sl ▸ s.pixel_lt hx hy),
    List.getElem_map]
  simp only [State.frameIndices, List.getElem_map, List.getElem_range, hdiv, hmod]

theorem State.decodeSlot_imgAt_beyond {i : Nat} (hi : s.width.toNat * s.height.toNat ≤ i) :
    (s.decodeSlot m sl).imgAt sl i = s.imgAt sl i := by
  rw [State.decodeSlot_imgAt, Memory.read_fill_ge _ _ _ _ (by rwa [State.length_frameColours])]
  rfl

end

/-- Settles O35: an accepted DECODE leaves `State.decodeSlot`, whose image is described pixel by pixel. -/
theorem decodeWritesTheImage : Obligations.DecodeWritesTheImage := by
  refine ⟨rfl, rfl, fun sl s m h =>
    ⟨_, exec_decode_of_accepts h, ?frame, fun x y hx hy => ?pixel, fun i hi => ?beyond⟩⟩
  case frame =>
    rw [State.decodeSlot_img, PerSlot.get_set_self, State.decodeSlot, State.frameIndices, List.countP_map]
    rfl
  case pixel => exact State.decodeSlot_imgAt_pixel (s := s.clearReport) hx hy
  case beyond => exact State.decodeSlot_imgAt_beyond (s := s.clearReport) hi

/-! ### What the round trips assume -/

/-- Every pixel of a slot's image has its colour in the slot's palette. -/
abbrev State.ImageInPalette (s : State) (sl : Slot) : Prop :=
  ∀ i < s.width.toNat * s.height.toNat, ∃ k < (s.palLen.get sl).toNat, s.palAt sl k = s.imgAt sl i

/-- Every index of a slot's frame is a palette position. -/
abbrev State.FrameInPalette (s : State) (m : GMode) (sl : Slot) : Prop :=
  ∀ x y, x < s.width.toNat → y < s.height.toNat → s.frameIndex m sl x y < (s.palLen.get sl).toNat

/-- No colour stands twice in a slot's palette. -/
abbrev State.PaletteDistinct (s : State) (sl : Slot) : Prop :=
  ∀ j < (s.palLen.get sl).toNat, ∀ k < (s.palLen.get sl).toNat, s.palAt sl j = s.palAt sl k → j = k

/-! ### DECODE after ENCODE (R196) -/

section
variable {s : State} {m : GMode} {sl : Slot}

theorem State.indexColour_of_lt {p : Nat} (h : p < (s.palLen.get sl).toNat) : s.indexColour sl p = s.palAt sl p :=
  if_pos h

/-- The column and the row of an element of the image memory. -/
theorem State.pixel_of_lt {i : Nat} (hi : i < s.width.toNat * s.height.toNat) :
    i % s.width.toNat < s.width.toNat ∧ i / s.width.toNat < s.height.toNat ∧
      i / s.width.toNat * s.width.toNat + i % s.width.toNat = i :=
  ⟨Nat.mod_lt i (Nat.pos_of_mul_pos_right (Nat.zero_lt_of_lt hi)), Nat.div_lt_of_lt_mul hi, Nat.div_add_mod' ..⟩

/-- DECODE raises no event where every index of the frame is a palette position. -/
theorem State.FrameInPalette.decodeSlot_eq (h : s.FrameInPalette m sl) :
    s.decodeSlot m sl =
      { s with img := s.img.set sl ((s.img.get sl).fill ((s.frameIndices m sl).map (s.indexColour sl))) } := by
  have hnone : (s.frameIndices m sl).countP (fun p => (s.palLen.get sl).toNat ≤ p) = 0 := by
    refine List.countP_eq_zero.2 fun p hp => ?_
    obtain ⟨i, hi, rfl⟩ := List.mem_map.1 hp
    obtain ⟨hx, hy, -⟩ := State.pixel_of_lt (List.mem_range.1 hi)
    simpa using h _ _ hx hy
  rw [State.decodeSlot, hnone, State.flag_zero]

/-- ENCODE raises no event where every colour of the image is in the palette. -/
theorem State.ImageInPalette.encodeSlot_eq (h : s.ImageInPalette sl) (hwidth : s.width.toNat % m.ppb = 0) :
    s.encodeSlot m sl =
      { s with
        fb := s.fb.set sl (s.encodedFrame m sl)
        fbLen := s.fbLen.set sl (BitVec.ofNat 16 (s.frameLen m)) } := by
  have hnone : s.imageMisses m sl = 0 := by
    rw [State.imageMisses_eq hwidth]
    refine List.countP_eq_zero.2 fun i hi => ?_
    obtain ⟨k, hk, hat⟩ := h i (List.mem_range.1 hi)
    rw [beq_iff_eq, State.lookup_eq_none]
    exact fun hmiss => hmiss k hk hat
  rw [State.encodeSlot, hnone, State.flag_zero]

section
variable (h : s.EncodeAccepts m sl)
include h

/-- DECODE accepts what ENCODE leaves. -/
theorem State.EncodeAccepts.decodeAccepts_encodeSlot : (s.encodeSlot m sl).DecodeAccepts m sl :=
  ⟨h, h.1.encodeSlot_fbLen_toNat⟩

/-- The index that ENCODE puts at a pixel is what the pixel's look-up gives. -/
theorem State.EncodeAccepts.frameIndex_encodeSlot {x y : Nat} (hx : x < s.width.toNat) (hy : y < s.height.toNat) :
    (s.encodeSlot m sl).frameIndex m sl x y = (s.lookup sl (s.imgAt sl (y * s.width.toNat + x))).getD 0 := by
  obtain ⟨hframe, hpal, -⟩ := h
  have hg : x / m.ppb < s.modeWidth m :=
    Nat.div_lt_of_lt_mul (by rwa [Nat.mul_comm, State.modeWidth_mul_ppb hframe.width_mod_ppb])
  have hk : x % m.ppb < m.ppb := Nat.mod_lt x m.ppb_pos
  have hbyte : (s.encodeSlot m sl).frameIndex m sl x y =
      unpackAt m (s.packGroup m sl (x / m.ppb) y) (x % m.ppb) :=
    congrArg (unpackAt m · (x % m.ppb)) (hframe.encodeSlot_fbAt_loc hg hy)
  have hunpack : (unpack m (s.packGroup m sl (x / m.ppb) y))[x % m.ppb]? =
      some (unpackAt m (s.packGroup m sl (x / m.ppb) y) (x % m.ppb)) := getElem?_unpackBy Config.pos _ hk
  rw [hpal.unpack_packGroup, State.getElem?_groupIndices hk, Nat.add_assoc, Nat.div_add_mod'] at hunpack
  rw [hbyte, Option.some.inj hunpack]

variable (hcol : s.ImageInPalette sl)
include hcol

/-- The encoded index of a palette colour is a palette position that holds the colour, whichever of them it is. -/
theorem State.EncodeAccepts.colour_of_encodeSlot {x y : Nat} (hx : x < s.width.toNat) (hy : y < s.height.toNat) :
    (s.encodeSlot m sl).frameIndex m sl x y < (s.palLen.get sl).toNat ∧
      s.palAt sl ((s.encodeSlot m sl).frameIndex m sl x y) = s.imgAt sl (y * s.width.toNat + x) := by
  obtain ⟨k, hk, hat⟩ := hcol _ (s.pixel_lt hx hy)
  rw [h.frameIndex_encodeSlot hx hy]
  cases hlook : s.lookup sl (s.imgAt sl (y * s.width.toNat + x)) with
  | none => exact absurd hat (State.lookup_eq_none.1 hlook k hk)
  | some i =>
    obtain ⟨hi, hcolour, -⟩ := State.lookup_eq_some.1 hlook
    exact ⟨hi, hcolour⟩

theorem State.EncodeAccepts.frameInPalette_encodeSlot : (s.encodeSlot m sl).FrameInPalette m sl :=
  fun _ _ hx hy => (h.colour_of_encodeSlot hcol hx hy).1

theorem State.EncodeAccepts.decodeSlot_encodeSlot_imgAt {i : Nat} (hi : i < s.width.toNat * s.height.toNat) :
    ((s.encodeSlot m sl).decodeSlot m sl).imgAt sl i = s.imgAt sl i := by
  obtain ⟨hx, hy, hpixel⟩ := State.pixel_of_lt hi
  obtain ⟨hlt, hat⟩ := h.colour_of_encodeSlot hcol hx hy
  rw [← hpixel, ← hat]
  exact (State.decodeSlot_imgAt_pixel (s := s.encodeSlot m sl) hx hy).trans (State.indexColour_of_lt hlt)

end
end

/-- Settles O36: ENCODE finds for each pixel a position that holds its colour, and DECODE reads the colour there. -/
theorem encodeThenDecodeRestoresImage : Obligations.EncodeThenDecodeRestoresImage := by
  intro sl s m h hcol
  have haccepts : s.clearReport.EncodeAccepts m sl := h
  refine ⟨_, _, exec_encode_of_accepts h, exec_decode_of_accepts haccepts.decodeAccepts_encodeSlot,
    fun i hi => ?image, ?report⟩
  case image =>
    rw [State.decodeSlot_clearReport_imgAt]
    exact haccepts.decodeSlot_encodeSlot_imgAt hcol hi
  case report =>
    have hidx : (s.clearReport.encodeSlot m sl).clearReport.FrameInPalette m sl :=
      haccepts.frameInPalette_encodeSlot hcol
    have himg : s.clearReport.ImageInPalette sl := hcol
    rw [hidx.decodeSlot_eq, himg.encodeSlot_eq h.1.width_mod_ppb]
    exact ⟨rfl, rfl, rfl, rfl⟩

/-! ### ENCODE after DECODE (R197) -/

section
variable {s : State} {m : GMode} {sl : Slot} (hidx : s.FrameInPalette m sl) (hdist : s.PaletteDistinct sl)
include hidx hdist

/-- The look-up of a decoded pixel finds its index again. -/
theorem State.lookup_decodeSlot {x y : Nat} (hx : x < s.width.toNat) (hy : y < s.height.toNat) :
    (s.decodeSlot m sl).lookup sl ((s.decodeSlot m sl).imgAt sl (y * s.width.toNat + x)) =
      some (s.frameIndex m sl x y) := by
  have hlt := hidx x y hx hy
  rw [State.decodeSlot_imgAt_pixel hx hy, State.indexColour_of_lt hlt]
  exact State.lookup_eq_some.2 ⟨hlt, rfl, fun j hj hat => hj.ne (hdist j (hj.trans hlt) _ hlt hat)⟩

/-- A group of the decoded image packs to the byte it was decoded from. -/
theorem State.packGroup_decodeSlot (hwidth : s.width.toNat % m.ppb = 0) {g y : Nat} (hg : g < s.modeWidth m)
    (hy : y < s.height.toNat) : (s.decodeSlot m sl).packGroup m sl g y = s.fbAt sl (s.loc m g y) := by
  have hindices : (s.decodeSlot m sl).groupIndices m sl g y = unpack m (s.fbAt sl (s.loc m g y)) := by
    rw [State.groupIndices, State.group, List.map_map]
    refine List.map_congr_left fun k hk => ?_
    have hk : k < m.ppb := List.mem_range.1 hk
    obtain ⟨hdiv, hmod⟩ := div_mod_of_lt (q := g) hk
    have hx : g * m.ppb + k < s.width.toNat :=
      calc g * m.ppb + k
          < (g + 1) * m.ppb := by rw [Nat.succ_mul]; omega
        _ ≤ s.modeWidth m * m.ppb := Nat.mul_le_mul_right _ hg
        _ = s.width.toNat := State.modeWidth_mul_ppb hwidth
    calc ((s.decodeSlot m sl).resolve? sl (g * m.ppb + k) y).getD 0
        = s.frameIndex m sl (g * m.ppb + k) y := congrArg (·.getD 0) (State.lookup_decodeSlot hidx hdist hx hy)
      _ = unpackAt m (s.fbAt sl (s.loc m g y)) k := by rw [State.frameIndex, hdiv, hmod]
  rw [State.packGroup_eq, hindices]
  exact packBy_unpackBy pos_bijective m _

end

/-- Settles O37: ENCODE packs each group of the decoded image to the byte it was decoded from. -/
theorem decodeThenEncodeRestoresFrame : Obligations.DecodeThenEncodeRestoresFrame := by
  intro sl s m h hidx hdist
  have haccepts : (s.clearReport.decodeSlot m sl).EncodeAccepts m sl := h.1
  have hframe : (s.clearReport.decodeSlot m sl).clearReport.FrameOk m := h.1.1
  refine ⟨_, _, exec_decode_of_accepts h, exec_encode_of_accepts haccepts, fun g y hg hy => ?group,
    fun i hi hgap => State.encodeSlot_fbAt_gap (s := (s.clearReport.decodeSlot m sl).clearReport) hi hgap⟩
  exact (hframe.encodeSlot_fbAt_loc hg hy).trans
    (State.packGroup_decodeSlot (s := s.clearReport) hidx hdist h.1.1.width_mod_ppb hg hy)

end Sys2Proof.Machine
end

section
/-! PROOFS. What the delta table holds after changes are accumulated (44_delta_engine.md R211 to R214): one item per
byte value in first-seen order, the addresses of each value in discovery order; and DADD, which accumulates one change
(R216). -/

namespace Sys2Proof.Machine

/-! ### One accumulated change -/

/-- The change of a new byte value is a new item at the end (R211). -/
theorem dtAdd_of_new {b : Byte} {dt : List DtItem} (h : b ∉ dt.map DtItem.byte) (a : Addr16) :
    dtAdd b a dt = dt ++ [{ byte := b, count := 1, addrs := [a] }] := by
  induction dt with
  | nil => rfl
  | cons it rest ih =>
    obtain ⟨hne, hrest⟩ := not_or.1 (mt List.mem_cons.2 h)
    rw [dtAdd, if_neg (Ne.symm hne), ih hrest, List.cons_append]

/-- The change of a byte value that has an item is appended to the first one (R211). -/
theorem dtAdd_of_item {b : Byte} {pre post : List DtItem} {it : DtItem} (hit : it.byte = b)
    (h : b ∉ pre.map DtItem.byte) (a : Addr16) :
    dtAdd b a (pre ++ it :: post) =
      pre ++ { it with count := it.count + 1, addrs := it.addrs ++ [a] } :: post := by
  induction pre with
  | nil => rw [List.nil_append, dtAdd, if_pos hit, List.nil_append]
  | cons x pre ih =>
    obtain ⟨hne, hpre⟩ := not_or.1 (mt List.mem_cons.2 h)
    rw [List.cons_append, dtAdd, if_neg (Ne.symm hne), ih hpre, List.cons_append]

/-! ### The addresses of a byte value -/

/-- The addresses a table holds for a byte value: those of its first item (10_state.md R50). -/
def addrsOf (b : Byte) : List DtItem → List Addr16
  | [] => []
  | it :: rest => if it.byte = b then it.addrs else addrsOf b rest

theorem addrsOf_dtAdd (b b' : Byte) (a : Addr16) (dt : List DtItem) :
    addrsOf b' (dtAdd b a dt) = addrsOf b' dt ++ (if b = b' then [a] else []) := by
  induction dt with
  | nil => rfl
  | cons it rest ih =>
    by_cases hb : it.byte = b
    · subst hb
      by_cases hb' : it.byte = b' <;> simp [dtAdd, addrsOf, hb']
    · by_cases hb' : it.byte = b'
      · subst hb'
        simp [dtAdd, addrsOf, hb, Ne.symm hb]
      · simp [dtAdd, addrsOf, hb, hb', ih]

/-- Where no byte value has two items, an item's addresses are those of its byte value. -/
theorem addrsOf_of_mem {dt : List DtItem} (h : (dt.map DtItem.byte).Nodup) {it : DtItem} (hit : it ∈ dt) :
    addrsOf it.byte dt = it.addrs := by
  induction dt with
  | nil => exact absurd hit List.not_mem_nil
  | cons x rest ih =>
    obtain ⟨hx, hrest⟩ := List.nodup_cons.1 h
    rcases List.mem_cons.1 hit with rfl | hit
    · exact if_pos rfl
    · have hne : x.byte ≠ it.byte := fun heq => hx (heq ▸ List.mem_map_of_mem hit)
      rw [addrsOf, if_neg hne, ih hrest hit]

/-- An address of a byte value stands in an item of that value. -/
theorem exists_item_of_mem_addrsOf {b : Byte} {a : Addr16} {dt : List DtItem} (h : a ∈ addrsOf b dt) :
    ∃ it ∈ dt, it.byte = b ∧ a ∈ it.addrs := by
  induction dt with
  | nil => exact absurd h List.not_mem_nil
  | cons x rest ih =>
    unfold addrsOf at h
    split at h
    · exact ⟨x, List.mem_cons_self, ‹_›, h⟩
    · obtain ⟨it, hit, hb⟩ := ih h
      exact ⟨it, List.mem_cons_of_mem x hit, hb⟩

/-! ### Accumulated changes -/

theorem dtAddAll_append (dt : List DtItem) (cs ds : List (Byte × Addr16)) :
    dtAddAll dt (cs ++ ds) = dtAddAll (dtAddAll dt cs) ds := List.foldl_append

theorem dtAddAll_concat (dt : List DtItem) (cs : List (Byte × Addr16)) (c : Byte × Addr16) :
    dtAddAll dt (cs ++ [c]) = dtAdd c.1 c.2 (dtAddAll dt cs) := dtAddAll_append dt cs [c]

/-- Each byte value gets its own changes, in their order (R212). -/
theorem addrsOf_dtAddAll (b : Byte) (cs : List (Byte × Addr16)) :
    addrsOf b (dtAddAll [] cs) = (cs.filter fun c => c.1 = b).map Prod.snd := by
  induction cs using List.reverseRecOn with
  | nil => rfl
  | append_singleton cs c ih =>
    rw [dtAddAll_concat, addrsOf_dtAdd, ih]
    by_cases hb : c.1 = b <;> simp [hb]

theorem nodup_bytes_dtAddAll (cs : List (Byte × Addr16)) : ((dtAddAll [] cs).map DtItem.byte).Nodup := by
  induction cs using List.reverseRecOn with
  | nil => exact List.nodup_nil
  | append_singleton cs c ih =>
    rw [dtAddAll_concat, bytes_dtAdd]
    split
    · exact ih
    · exact ih.append (List.nodup_singleton c.1) (List.disjoint_singleton.2 ‹_›)

theorem dtTotal_dtAddAll (cs : List (Byte × Addr16)) : dtTotal (dtAddAll [] cs) = cs.length := by
  induction cs using List.reverseRecOn with
  | nil => rfl
  | append_singleton cs c ih => rw [dtAddAll_concat, dtTotal_dtAdd, ih, List.length_append, List.length_singleton]

/-- Counts do not wrap below 2^16 changes (R214). -/
theorem countOk_dtAddAll {cs : List (Byte × Addr16)} (h : cs.length < 2 ^ 16) :
    ∀ it ∈ dtAddAll [] cs, it.CountOk := by
  induction cs using List.reverseRecOn with
  | nil => exact nofun
  | append_singleton cs c ih =>
    rw [List.length_append, List.length_singleton] at h
    rw [dtAddAll_concat]
    exact countOk_dtAdd c.1 c.2 (ih (by omega)) (by rw [dtTotal_dtAddAll]; omega)

theorem mem_bytes_dtAddAll (b : Byte) (cs : List (Byte × Addr16)) :
    b ∈ (dtAddAll [] cs).map DtItem.byte ↔ b ∈ cs.map Prod.fst := by
  induction cs using List.reverseRecOn with
  | nil => exact Iff.rfl
  | append_singleton cs c ih =>
    rw [dtAddAll_concat, bytes_dtAdd, List.map_append, List.mem_append, ← ih]
    split
    case isTrue hc => exact (or_iff_left_of_imp fun hb => List.mem_singleton.1 hb ▸ hc).symm
    case isFalse => exact List.mem_append

/-- Items stand in the order in which their byte values were first seen (R212). -/
theorem pairwise_bytes_dtAddAll (cs : List (Byte × Addr16)) :
    ((dtAddAll [] cs).map DtItem.byte).Pairwise
      fun b b' => (cs.map Prod.fst).idxOf b < (cs.map Prod.fst).idxOf b' := by
  induction cs using List.reverseRecOn with
  | nil => exact List.Pairwise.nil
  | append_singleton cs c ih =>
    have hseen {b : Byte} (hb : b ∈ (dtAddAll [] cs).map DtItem.byte) :
        ((cs ++ [c]).map Prod.fst).idxOf b = (cs.map Prod.fst).idxOf b := by
      rw [List.map_append, List.idxOf_append_of_mem ((mem_bytes_dtAddAll b cs).1 hb)]
    have hold : ((dtAddAll [] cs).map DtItem.byte).Pairwise
        fun b b' => ((cs ++ [c]).map Prod.fst).idxOf b < ((cs ++ [c]).map Prod.fst).idxOf b' :=
      ih.imp_of_mem fun hb hb' hlt => by rwa [hseen hb, hseen hb']
    rw [dtAddAll_concat, bytes_dtAdd]
    split
    case isTrue => exact hold
    case isFalse hc =>
      refine List.pairwise_append.2 ⟨hold, List.pairwise_singleton _ _, fun b hb b' hb' => ?_⟩
      rw [List.mem_singleton.1 hb', hseen hb, List.map_append,
        List.idxOf_append_of_notMem (mt (mem_bytes_dtAddAll c.1 cs).2 hc)]
      exact (List.idxOf_lt_length_of_mem ((mem_bytes_dtAddAll b cs).1 hb)).trans_le (Nat.le_add_right _ _)

/-! ### DADD -/

/-- DADD fails on a full table only (R216). -/
theorem exec_dadd_of_full (b : Byte) (a : Addr16) {s : State} (h : dtTotal s.dt = Config.dtAddrCap) :
    exec (.dadd b a) s = .next (s.raise .capacityExceeded (encode (.dadd b a))) := by
  have hfail : firstFailure [(dtTotal s.dt == Config.dtAddrCap, .capacityExceeded)] = some .capacityExceeded :=
    if_pos (beq_iff_eq.2 h)
  unfold exec execDadd
  exact guarded_of_fail hfail

theorem exec_dadd_of_room (b : Byte) (a : Addr16) {s : State} (h : dtTotal s.dt ≠ Config.dtAddrCap) :
    exec (.dadd b a) s = .next { s.clearReport with dt := dtAdd b a s.dt } := by
  have hpass : firstFailure [(dtTotal s.dt == Config.dtAddrCap, .capacityExceeded)] = none :=
    if_neg (mt beq_iff_eq.1 h)
  unfold exec execDadd
  exact guarded_of_pass hpass

/-- The word of a DADD: opcode, value and address (30_encoding.md R111). -/
theorem encode_dadd (b : Byte) (a : Addr16) :
    encode (.dadd b a) = BitVec.ofNat 32 (0x51000000 + b.toNat * 2 ^ 16 + a.toNat) := by
  apply BitVec.eq_of_toNat_eq
  change (0x51#8 ++ (b ++ a)).toNat = _
  rw [BitVec.toNat_append, BitVec.toNat_append, ← Nat.shiftLeft_add_eq_or_of_lt a.isLt,
    ← Nat.shiftLeft_add_eq_or_of_lt (by have := b.isLt; have := a.isLt; simp only [Nat.shiftLeft_eq]; omega)]
  simp only [Nat.shiftLeft_eq, BitVec.toNat_ofNat]
  omega

/-! ### The statements -/

/-- Settles O38: an item's addresses are those of its byte value, and each new byte value goes to the end. -/
theorem deltaOrderContract : Obligations.DeltaOrderContract := by
  intro cs hlen
  refine ⟨fun it hit => ?_, fun b => mem_bytes_dtAddAll b cs, pairwise_bytes_dtAddAll cs⟩
  obtain ⟨hcount, hpos⟩ := countOk_dtAddAll hlen it hit
  rw [← addrsOf_dtAddAll, addrsOf_of_mem (nodup_bytes_dtAddAll cs) hit]
  exact ⟨rfl, List.ne_nil_of_length_pos hpos, hcount⟩

/-- Settles O39: DTadd appends to the first item of the byte value or at the end, and DADD is DTadd below capacity. -/
theorem daddAccumulates : Obligations.DaddAccumulates := by
  refine fun b a => ⟨fun dt => ⟨fun h => dtAdd_of_new h a, ?item⟩, encode_dadd b a, fun s =>
    ⟨exec_dadd_of_full b a, exec_dadd_of_room b a⟩⟩
  rintro pre it post rfl hit hpre
  exact dtAdd_of_item hit hpre a

end Sys2Proof.Machine
end

section
/-! PROOFS. DIFF and DIFFI (44_delta_engine.md R217 to R221): the changed groups of a frame, their target addresses and
their events; that DIFFI compares what ENCODE writes; and that without an event the targets are distinct. -/

namespace Sys2Proof.Machine

section
variable {s : State} {m : GMode}

/-! ### The changes of a frame -/

/-- A group of a sprite is stored at its place in the frame (R217). -/
theorem State.placed_of_sprite (h : s.sprite = true) (p : Nat × Nat) :
    s.placedOutside m p = false ∧ s.placedAddress m p = BitVec.ofNat 16 (s.loc m p.1 p.2) := by
  rw [State.loc_of_sprite m h]
  simp [State.placedOutside, State.placedAddress, State.modeWidth, h]

/-- A group on the screen is stored at the hardware address of its place (R217). -/
theorem State.placed_of_inRange (h : s.sprite = false) {p : Nat × Nat}
    (hin : s.screen.inRange (s.placed m p).1 (s.placed m p).2 = true) :
    s.placedOutside m p = false ∧
      s.placedAddress m p = s.origin + BitVec.ofNat 16 (s.screen.offset (s.placed m p).1 (s.placed m p).2) := by
  simp [State.placedOutside, State.placedAddress, h, hin]

/-- Outside the screen ORIGIN is substituted (R217). -/
theorem State.placed_of_outside (h : s.sprite = false) {p : Nat × Nat}
    (hout : s.screen.inRange (s.placed m p).1 (s.placed m p).2 = false) :
    s.placedOutside m p = true ∧ s.placedAddress m p = s.origin := by
  simp [State.placedOutside, State.placedAddress, h, hout]

/-- The model's target of a group is the address and the range that the statements speak of. -/
theorem State.target_eq (s : State) (m : GMode) (b : Byte) (p : Nat × Nat) :
    s.target m b p.1 p.2 = ⟨b, s.placedAddress m p, s.placedOutside m p⟩ := by
  cases hs : s.sprite with
  | true =>
    obtain ⟨hout, haddr⟩ := State.placed_of_sprite (m := m) hs p
    rw [State.target, if_pos hs, hout, haddr, State.loc_of_sprite m hs]
    rfl
  | false =>
    rw [State.target, if_neg (Bool.not_eq_true _ ▸ hs)]
    cases hin : s.screen.inRange (s.placed m p).1 (s.placed m p).2 with
    | true =>
      have hfwd : s.screen.forward m (s.placeX.toNat + p.1 * m.ppb) (s.placeY.toNat + p.2) = _ :=
        Screen.forward_of_inRange hin
      obtain ⟨hout, haddr⟩ := State.placed_of_inRange hs hin
      rw [hfwd, hout, haddr, ← toNat_address]
      exact congrArg (Change.mk b · false) ((BitVec.ofNat_toNat 16 _).trans (BitVec.setWidth_eq _))
    | false =>
      have hfwd : s.screen.forward m (s.placeX.toNat + p.1 * m.ppb) (s.placeY.toNat + p.2) = _ :=
        Screen.forward_of_outside hin
      obtain ⟨hout, haddr⟩ := State.placed_of_outside hs hin
      rw [hfwd, hout, haddr]
      exact congrArg (Change.mk b · true) ((BitVec.ofNat_toNat 16 _).trans (BitVec.setWidth_eq _))

/-- The groups whose bytes differ, in raster order (R212). -/
def State.changedGroups (s : State) (m : GMode) (old new : Nat → Nat → Byte) : List (Nat × Nat) :=
  (s.rasterGroups m).filter fun p => old p.1 p.2 != new p.1 p.2

/-- What is accumulated for them: the new byte and the target address of each. -/
def State.delta (s : State) (m : GMode) (old new : Nat → Nat → Byte) : List (Byte × Addr16) :=
  (s.changedGroups m old new).map fun p => (new p.1 p.2, s.placedAddress m p)

theorem State.changes_eq (s : State) (m : GMode) (old new : Nat → Nat → Byte) :
    s.changes m old new = (s.changedGroups m old new).map fun p =>
      ⟨new p.1 p.2, s.placedAddress m p, s.placedOutside m p⟩ := by
  rw [State.changes, State.changedGroups, State.rasterGroups_eq, ← List.filterMap_eq_map, List.filterMap_filter]
  refine List.filterMap_congr fun p _ => ?_
  rw [State.target_eq]
  by_cases h : old p.1 p.2 = new p.1 p.2 <;> simp [h]

/-- Rebuilding the table from the changes of a frame, with one event for each group placed outside the screen. -/
theorem State.accumulate_changes (s t : State) (m : GMode) (old new : Nat → Nat → Byte) :
    t.accumulate (s.changes m old new) =
      State.flag .addressOutOfRange ((s.changedGroups m old new).countP (s.placedOutside m))
        { t with dt := dtAddAll [] (s.delta m old new) } := by
  rw [State.accumulate, State.changes_eq, List.countP_map, List.map_map]
  rfl

/-- The byte of a group of a slot's frame. -/
abbrev State.groupByte (s : State) (m : GMode) (sl : Slot) (g y : Nat) : Byte := s.fbAt sl (s.loc m g y)

theorem exec_diff_eq_accumulate (h : s.DiffAccepts m) :
    exec .diff s = .next (s.clearReport.accumulate (s.frameChanges m)) := by
  have ⟨⟨hm, _⟩, _⟩ := h
  exact (withMode_of_mode hm).trans (guarded_of_pass ((State.diffChecks_pass hm).2 h))

theorem exec_diffi_eq_accumulate (h : s.DiffiAccepts m) :
    exec .diffi s = .next ((s.clearReport.accumulate (s.imageChanges m)).flag .notFound
      (s.imageMisses m .a + s.imageMisses m .b)) := by
  have ⟨⟨hm, _⟩, _⟩ := h
  exact (withMode_of_mode hm).trans (guarded_of_pass ((State.diffiChecks_pass hm).2 h))

theorem exec_diff_of_accepts (h : s.DiffAccepts m) :
    exec .diff s = .next (State.flag .addressOutOfRange
      ((s.changedGroups m (s.groupByte m .a) (s.groupByte m .b)).countP (s.placedOutside m))
      { s with err := 0, dt := dtAddAll [] (s.delta m (s.groupByte m .a) (s.groupByte m .b)) }) := by
  rw [exec_diff_eq_accumulate h, State.frameChanges, State.accumulate_changes]
  rfl

theorem exec_diffi_of_accepts (h : s.DiffiAccepts m) :
    exec .diffi s = .next (State.flag .notFound (s.imageMisses m .a + s.imageMisses m .b)
      (State.flag .addressOutOfRange
        ((s.changedGroups m (s.packGroup m .a) (s.packGroup m .b)).countP (s.placedOutside m))
        { s with err := 0, dt := dtAddAll [] (s.delta m (s.packGroup m .a) (s.packGroup m .b)) })) := by
  rw [exec_diffi_eq_accumulate h, State.imageChanges, State.accumulate_changes]
  rfl

end

/-- Settles O40: an accepted DIFF accumulates the changed groups of the two frames. -/
theorem diffRecordsChangedGroups : Obligations.DiffRecordsChangedGroups :=
  ⟨rfl, fun _ _ h => exec_diff_of_accepts h⟩

/-- Settles O41: an accepted DIFFI accumulates the changed groups of the two images and counts their misses. -/
theorem diffiRecordsChangedGroups : Obligations.DiffiRecordsChangedGroups :=
  ⟨rfl, fun _ _ h => exec_diffi_of_accepts h⟩

end Sys2Proof.Machine
end

section
/-! PROOFS. A DIFF without an event is complete (44_delta_engine.md R221): the addresses of the rebuilt table are the
targets of the changed groups, and two groups of an accepted frame that are placed on the screen have two targets. -/

namespace Sys2Proof.Machine

/-! ### The addresses of all items -/

theorem addrs_dtAdd_perm (b : Byte) (a : Addr16) (dt : List DtItem) :
    ((dtAdd b a dt).flatMap DtItem.addrs).Perm (a :: dt.flatMap DtItem.addrs) := by
  induction dt with
  | nil => exact .refl _
  | cons it rest ih =>
    unfold dtAdd
    split
    · simp
    · exact (ih.append_left it.addrs).trans List.perm_middle

/-- A rebuilt table holds the addresses of its changes, each as often as it occurs. -/
theorem addrs_dtAddAll_perm (cs : List (Byte × Addr16)) :
    ((dtAddAll [] cs).flatMap DtItem.addrs).Perm (cs.map Prod.snd) := by
  induction cs using List.reverseRecOn with
  | nil => exact .refl _
  | append_singleton cs c ih =>
    rw [dtAddAll_concat, List.map_append]
    exact (addrs_dtAdd_perm c.1 c.2 _).trans ((ih.cons c.2).trans (List.perm_append_singleton ..).symm)

/-- An accumulated address stands in an item of its byte value. -/
theorem exists_item_of_mem {cs : List (Byte × Addr16)} {c : Byte × Addr16} (h : c ∈ cs) :
    ∃ it ∈ dtAddAll [] cs, it.byte = c.1 ∧ c.2 ∈ it.addrs := by
  apply exists_item_of_mem_addrsOf
  rw [addrsOf_dtAddAll]
  exact List.mem_map_of_mem (List.mem_filter.2 ⟨h, decide_eq_true rfl⟩)

/-! ### The targets of a frame's groups -/

section
variable {s : State} {m : GMode}

/-- Placing a frame moves each of its groups by the same columns and rows. -/
theorem State.placed_inj {p q : Nat × Nat} (h : s.placed m p = s.placed m q) : p = q := by
  obtain ⟨hx, hy⟩ := Prod.mk.inj h
  rw [Nat.add_mul_div_right _ _ m.ppb_pos, Nat.add_mul_div_right _ _ m.ppb_pos] at hx
  exact Prod.ext (Nat.add_left_cancel hx) (Nat.add_left_cancel hy)

/-- Two groups placed on the screen have two targets. -/
theorem State.FrameOk.placedAddress_inj (h : s.FrameOk m) {p q : Nat × Nat} (hp : p ∈ s.positions m)
    (hq : q ∈ s.positions m) (hpin : s.placedOutside m p = false) (hqin : s.placedOutside m q = false)
    (heq : s.placedAddress m p = s.placedAddress m q) : p = q := by
  obtain ⟨hpg, hpy⟩ := State.mem_positions.1 hp
  obtain ⟨hqg, hqy⟩ := State.mem_positions.1 hq
  cases hs : s.sprite with
  | true =>
    have hcap : s.frameLen m ≤ 0x8000 := h.frameLen_le
    have hlp := h.loc_lt_frameLen hpg hpy
    have hlq := h.loc_lt_frameLen hqg hqy
    rw [(State.placed_of_sprite hs p).2, (State.placed_of_sprite hs q).2] at heq
    have hloc := congrArg BitVec.toNat heq
    rw [BitVec.toNat_ofNat, BitVec.toNat_ofNat, Nat.mod_eq_of_lt (by omega), Nat.mod_eq_of_lt (by omega)] at hloc
    obtain ⟨hg, hy⟩ := h.loc_inj hpg hpy hqg hqy hloc
    exact Prod.ext hg hy
  | false =>
    obtain ⟨-, hcfg, -⟩ := h
    have hrange {r : Nat × Nat} (hr : s.placedOutside m r = false) :
        s.screen.inRange (s.placed m r).1 (s.placed m r).2 = true := by
      simpa [State.placedOutside, hs] using hr
    have hoff {r : Nat × Nat} (hr : s.placedOutside m r = false) :
        (s.placedAddress m r - s.origin).toNat = s.screen.offset (s.placed m r).1 (s.placed m r).2 := by
      rw [(State.placed_of_inRange hs (hrange hr)).2]
      exact Screen.toNat_address_sub_origin (hcfg hs) s.screen_banks_le (hrange hr)
    have hoffset := hoff hpin
    rw [heq, hoff hqin] at hoffset
    obtain ⟨hg, hy⟩ := Screen.offset_inj (hcfg hs) s.screen_banks_le (hrange hqin) (hrange hpin) hoffset
    exact (State.placed_inj (Prod.ext hg hy)).symm

theorem State.mem_changedGroups {old new : Nat → Nat → Byte} {p : Nat × Nat} :
    p ∈ s.changedGroups m old new ↔ p ∈ s.rasterGroups m ∧ old p.1 p.2 ≠ new p.1 p.2 := by
  rw [State.changedGroups, List.mem_filter, bne_iff_ne]

/-- Changed groups that are all placed on the screen have targets without a repetition. -/
theorem State.FrameOk.nodup_delta (h : s.FrameOk m) {old new : Nat → Nat → Byte}
    (hin : ∀ p ∈ s.changedGroups m old new, s.placedOutside m p = false) :
    ((s.delta m old new).map Prod.snd).Nodup := by
  rw [State.delta, List.map_map]
  refine ((s.positions_nodup m).filter _).map_on fun p hp q hq heq => ?_
  exact h.placedAddress_inj (State.mem_changedGroups.1 hp).1 (State.mem_changedGroups.1 hq).1 (hin p hp) (hin q hq) heq

end

/-- A report that was clear stays clear only without an event (60_exceptions.md R289). -/
theorem State.flag_err_eq_zero {s : State} (h : s.err = 0) {e : Event} {n : Nat} (hf : (s.flag e n).err = 0) :
    n = 0 := by
  by_contra hn
  rw [State.flag_err, if_neg hn, h] at hf
  cases e <;> exact absurd hf (by decide)

/-- Settles O43: DIFF accumulates one change for each changed group, and without an event all of them lie on the
screen. -/
theorem deltaCompleteness : Obligations.DeltaCompleteness := by
  intro s t m h hx herr
  obtain rfl := Host.Outcome.next.inj ((exec_diff_of_accepts h).symm.trans hx)
  have hin : ∀ p ∈ s.changedGroups m (s.groupByte m .a) (s.groupByte m .b), s.placedOutside m p = false :=
    fun p hp => Bool.not_eq_true _ ▸ List.countP_eq_zero.1 (State.flag_err_eq_zero rfl herr) p hp
  rw [State.flag_dt]
  refine ⟨(addrs_dtAddAll_perm _).nodup_iff.2 (h.1.nodup_delta hin), fun p hp hne => ?_, fun a ha => ?_⟩
  · exact exists_item_of_mem (c := (s.groupByte m .b p.1 p.2, s.placedAddress m p))
      (List.mem_map_of_mem (State.mem_changedGroups.2 ⟨hp, hne⟩))
  · obtain ⟨c, hc, rfl⟩ := List.mem_map.1 ((addrs_dtAddAll_perm _).mem_iff.1 ha)
    obtain ⟨p, hp, rfl⟩ := List.mem_map.1 hc
    obtain ⟨hgroup, hne⟩ := State.mem_changedGroups.1 hp
    exact ⟨p, hgroup, rfl, hne⟩

end Sys2Proof.Machine
end

section
/-! PROOFS. DIFFI gives what ENCODE A; ENCODE B; DIFF give (44_delta_engine.md R220): the two ENCODEs leave the packed
groups that DIFFI compares, and events of one kind add up. -/

namespace Sys2Proof.Machine

/-! ### Events in a row -/

/-- What a run of events adds to FLAGS (60_exceptions.md R287). -/
def Event.flagBits (e : Event) (n : Nat) : BitVec 10 := if n = 0 then 0 else e.err.flagBit

theorem State.flag_flags_eq_or (s : State) (e : Event) (n : Nat) : (s.flag e n).flags = s.flags ||| e.flagBits n := by
  rw [State.flag_flags, Event.flagBits]
  split
  · exact BitVec.or_zero.symm
  · rfl

theorem Event.flagBits_add (e : Event) (n k : Nat) : e.flagBits (n + k) = e.flagBits n ||| e.flagBits k := by
  cases n with
  | zero => simp [Event.flagBits]
  | succ n =>
    cases k with
    | zero => simp [Event.flagBits]
    | succ k => simp [Event.flagBits]

/-- A saturating counter counts two runs of events as one (60_exceptions.md R287). -/
theorem satAdd_add (c : Word) (n k : Nat) : satAdd c (n + k) = satAdd (satAdd c n) k := by
  apply BitVec.eq_of_toNat_eq
  simp only [toNat_satAdd]
  omega

theorem State.encodeSlot_flags (s : State) (m : GMode) (sl : Slot) :
    (s.encodeSlot m sl).flags = s.flags ||| Event.notFound.flagBits (s.imageMisses m sl) :=
  State.flag_flags_eq_or _ .notFound _

theorem State.accumulate_flags (s : State) (cs : List Change) :
    (s.accumulate cs).flags = s.flags ||| Event.addressOutOfRange.flagBits (cs.countP (·.outOfRange)) :=
  State.flag_flags_eq_or _ .addressOutOfRange _

/-! ### The frames that the two ENCODEs leave -/

/-! ENCODE writes a frame buffer and its length, which the positions, the images and the placement do not depend on. -/

section
variable (s : State) (m : GMode) (sl sl' : Slot)

@[simp] theorem State.frameLen_encodeSlot : (s.encodeSlot m sl).frameLen m = s.frameLen m := rfl
@[simp] theorem State.loc_encodeSlot (g y : Nat) : (s.encodeSlot m sl).loc m g y = s.loc m g y := rfl
@[simp] theorem State.changes_encodeSlot (old new : Nat → Nat → Byte) :
    (s.encodeSlot m sl).changes m old new = s.changes m old new := rfl
@[simp] theorem State.changes_clearReport (old new : Nat → Nat → Byte) :
    s.clearReport.changes m old new = s.changes m old new := rfl
@[simp] theorem State.packGroup_encodeSlot (g y : Nat) :
    (s.encodeSlot m sl).packGroup m sl' g y = s.packGroup m sl' g y := rfl
@[simp] theorem State.imageMisses_encodeSlot : (s.encodeSlot m sl).imageMisses m sl' = s.imageMisses m sl' := rfl
@[simp] theorem State.groupByte_clearReport (g y : Nat) : s.clearReport.groupByte m sl g y = s.groupByte m sl g y := rfl

end

section
variable {s : State} {m : GMode}

theorem State.FrameOk.clearReport (h : s.FrameOk m) : s.clearReport.FrameOk m := h
theorem State.FrameOk.encodeSlot (h : s.FrameOk m) (sl : Slot) : (s.encodeSlot m sl).FrameOk m := h

/-- The byte of a group of an encoded slot is its packed group (43_frame_codec.md R194). -/
theorem State.FrameOk.groupByte_encodeSlot (h : s.FrameOk m) (sl : Slot) {g y : Nat} (hg : g < s.modeWidth m)
    (hy : y < s.height.toNat) : (s.encodeSlot m sl).groupByte m sl g y = s.packGroup m sl g y :=
  h.encodeSlot_fbAt_loc hg hy

/-- The other slot keeps its bytes. -/
theorem State.groupByte_encodeSlot_ne (s : State) (m : GMode) {sl sl' : Slot} (h : sl ≠ sl') (g y : Nat) :
    (s.encodeSlot m sl).groupByte m sl' g y = s.groupByte m sl' g y := by
  rw [State.groupByte, State.loc_encodeSlot, State.fbAt, State.encodeSlot_fb, PerSlot.get_set_ne _ h]
  rfl

/-- The comparison looks at the bytes of the frame's groups only. -/
theorem State.changes_congr {old old' new new' : Nat → Nat → Byte}
    (h : ∀ p ∈ s.positions m, old p.1 p.2 = old' p.1 p.2 ∧ new p.1 p.2 = new' p.1 p.2) :
    s.changes m old new = s.changes m old' new' := by
  refine List.filterMap_congr fun p hp => ?_
  obtain ⟨hold, hnew⟩ := h p hp
  rw [hold, hnew]

/-- The state after ENCODE A; ENCODE B. -/
def State.encodeBoth (s : State) (m : GMode) : State :=
  ((s.clearReport.encodeSlot m .a).clearReport.encodeSlot m .b)

section
variable (h : s.DiffiAccepts m)
include h

/-- DIFF accepts the two frames. -/
theorem State.DiffiAccepts.diffAccepts_encodeBoth : (s.encodeBoth m).DiffAccepts m := by
  obtain ⟨hframe, -⟩ := h
  have hlen : (s.encodeBoth m).fbLen = ⟨BitVec.ofNat 16 (s.frameLen m), BitVec.ofNat 16 (s.frameLen m)⟩ := by
    rw [State.encodeBoth, State.encodeSlot_fbLen, State.frameLen_clearReport, State.frameLen_encodeSlot]
    rfl
  have hcap : s.frameLen m ≤ 0x8000 := hframe.frameLen_le
  refine ⟨(hframe.clearReport.encodeSlot .a).clearReport.encodeSlot .b, by rw [hlen], ?_⟩
  rw [hlen, BitVec.toNat_ofNat, Nat.mod_eq_of_lt (by omega), State.encodeBoth]
  simp only [State.frameLen_encodeSlot, State.frameLen_clearReport]

/-- DIFF sees in them the changes that DIFFI sees in the images. -/
theorem State.DiffiAccepts.frameChanges_encodeBoth : (s.encodeBoth m).frameChanges m = s.imageChanges m := by
  obtain ⟨hframe, -⟩ := h
  have ha := hframe.clearReport
  have hb := (ha.encodeSlot .a).clearReport
  have hgroups : ∀ p ∈ s.positions m, (s.encodeBoth m).groupByte m .a p.1 p.2 = s.packGroup m .a p.1 p.2 ∧
      (s.encodeBoth m).groupByte m .b p.1 p.2 = s.packGroup m .b p.1 p.2 := fun p hp => by
    obtain ⟨hg, hy⟩ := State.mem_positions.1 hp
    rw [State.encodeBoth, State.groupByte_encodeSlot_ne _ m (by decide), State.groupByte_clearReport,
      ha.groupByte_encodeSlot .a hg hy, hb.groupByte_encodeSlot .b hg hy]
    simp only [State.packGroup_clearReport, State.packGroup_encodeSlot, and_self]
  calc (s.encodeBoth m).frameChanges m
      = s.changes m ((s.encodeBoth m).groupByte m .a) ((s.encodeBoth m).groupByte m .b) := by
        simp only [State.frameChanges, State.encodeBoth, State.changes_encodeSlot, State.changes_clearReport]
    _ = s.imageChanges m := State.changes_congr hgroups

end

end

/-- Settles O42: DIFF accumulates the same changes as DIFFI, and the NotFound events of the two ENCODEs are DIFFI's. -/
theorem diffiEqualsEncodeEncodeDiff : Obligations.DiffiEqualsEncodeEncodeDiff := by
  intro s m h
  have ⟨hframe, hpala, hpalb, himage⟩ := h
  have hdiff := exec_diff_eq_accumulate h.diffAccepts_encodeBoth
  rw [h.frameChanges_encodeBoth] at hdiff
  refine ⟨_, _, _, _, exec_diffi_eq_accumulate h, exec_encode_of_accepts ⟨hframe, hpala, himage⟩,
    exec_encode_of_accepts ⟨hframe.clearReport.encodeSlot .a, hpalb, himage⟩, hdiff, rfl, ?flags, ?nfCnt, rfl, rfl⟩
  case flags =>
    simp only [State.flag_flags_eq_or, State.accumulate_flags, State.clearReport_flags, State.encodeBoth,
      State.encodeSlot_flags, State.imageMisses_clearReport, State.imageMisses_encodeSlot, Event.flagBits_add]
    ac_rfl
  case nfCnt => exact satAdd_add ..

end Sys2Proof.Machine
end

section
/-! PROOFS. The marshalled stream (44_delta_engine.md R222, R223): its bytes, the records of an item, and what MARSHAL
leaves in OUT. -/

namespace Sys2Proof.Machine

/-! ### The bytes of a stream -/

/-- An address as its low and its high byte (20_memory.md R85). -/
theorem bytesLE_addr (a : Addr16) : bytesLE a.toNat = [a.extractLsb' 0 8, a.extractLsb' 8 8] := by
  have hlt := a.isLt
  have hlo : BitVec.ofNat 8 (a.toNat % 256) = a.extractLsb' 0 8 := by
    apply BitVec.eq_of_toNat_eq
    simp
  have hhi : BitVec.ofNat 8 (a.toNat / 256) = a.extractLsb' 8 8 := by
    apply BitVec.eq_of_toNat_eq
    simp [Nat.shiftRight_eq_div_pow]
  rw [bytesLE, hlo, hhi]

/-- A stream is its number of records and then each of them (R222). -/
theorem streamBytes_eq (recs : List Record) : streamBytes recs =
    BitVec.ofNat 8 (recs.length % 256) :: BitVec.ofNat 8 (recs.length / 256) :: recs.flatMap fun r =>
      r.1 :: BitVec.ofNat 8 r.2.length :: r.2.flatMap fun a => [a.extractLsb' 0 8, a.extractLsb' 8 8] := by
  simp only [← bytesLE_addr]
  rfl

/-! ### The records of an item -/

section
variable {it : DtItem} (h : it.count.toNat = it.addrs.length)
include h

/-- The records of an item are its addresses in chunks of 255 (R223). -/
theorem DtItem.records_eq : it.records =
    (List.range ((it.addrs.length + 254) / 255)).map fun q => (it.byte, (it.addrs.drop (255 * q)).take 255) := by
  rw [DtItem.records, h, List.take_length]

theorem DtItem.flatMap_records : it.records.flatMap Prod.snd = it.addrs := by
  rw [DtItem.records_eq h, List.flatMap_map, flatMap_chunks, List.take_of_length_le (by omega)]

/-- Each record is one of the chunks, and none of them is empty. -/
theorem DtItem.mem_records {r : Record} (hr : r ∈ it.records) :
    r.1 = it.byte ∧ 1 ≤ r.2.length ∧ r.2.length ≤ 255 := by
  rw [DtItem.records_eq h] at hr
  obtain ⟨q, hq, rfl⟩ := List.mem_map.1 hr
  have hq := List.mem_range.1 hq
  refine ⟨rfl, ?_⟩
  rw [List.length_take, List.length_drop]
  omega

/-- Every record but the last is full. -/
theorem DtItem.mem_dropLast_records {r : Record} (hr : r ∈ it.records.dropLast) : r.2.length = 255 := by
  rw [DtItem.records_eq h, List.dropLast_eq_take, ← List.map_take, List.take_range, List.length_map,
    List.length_range] at hr
  obtain ⟨q, hq, rfl⟩ := List.mem_map.1 hr
  have hq := List.mem_range.1 hq
  rw [List.length_take, List.length_drop]
  omega

end

/-! ### MARSHAL -/

theorem exec_marshal (s : State) : exec .marshal s = .next s.clearReport.marshalTable := by
  unfold exec execMarshal
  exact guarded_nil ..

theorem State.marshalTable_outAt_lt (s : State) {i : Nat} (h : i < (streamBytes (dtRecords s.dt)).length) :
    s.marshalTable.outAt i = (streamBytes (dtRecords s.dt))[i] := Memory.read_fill_lt _ _ _ _ h

theorem State.marshalTable_outAt_ge (s : State) {i : Nat} (h : (streamBytes (dtRecords s.dt)).length ≤ i) :
    s.marshalTable.outAt i = s.outAt i := Memory.read_fill_ge _ _ _ _ h

/-- The longest stream: one record per byte value more than full records would need (10_state.md R51). -/
theorem DeltaTableOk.length_stream_le {dt : List DtItem} (h : DeltaTableOk dt) :
    (streamBytes (dtRecords dt)).length ≤ 66306 := by
  have hitems := h.length_le
  obtain ⟨hcount, -, htotal⟩ := h
  have hrecs := length_dtRecords_le hcount
  have haddrs := sum_dtRecords_le dt
  have hcap : Config.dtAddrCap = 32768 := rfl
  rw [length_streamBytes]
  omega

/-- Settles O44: the stream's bytes, an item's records, and the fill of OUT that MARSHAL is. -/
theorem marshalWritesTheStream : Obligations.MarshalWritesTheStream := by
  refine ⟨rfl, streamBytes_eq, fun it h => ⟨it.flatMap_records h, fun r => it.mem_records h, fun r =>
    it.mem_dropLast_records h⟩, fun s => ⟨⟨_, exec_marshal s, rfl, fun i hi => ?inside, fun i hi => ?beyond⟩,
      DeltaTableOk.length_stream_le⟩⟩
  case inside => exact s.clearReport.marshalTable_outAt_lt hi
  case beyond => exact s.clearReport.marshalTable_outAt_ge hi

end Sys2Proof.Machine
end

section
/-! PROOFS. UNMARSHAL (44_delta_engine.md R224): the parser answers the records of a stream within the limits, and of
nothing else; and MARSHAL followed by UNMARSHAL restores a table that keeps its rules (R225). -/

namespace Sys2Proof.Machine

/-! ### Addresses and records -/

/-- Two bytes make up the address whose bytes they are (20_memory.md R85). -/
theorem bytesLE_append (hi lo : Byte) : bytesLE (hi ++ lo : Addr16).toNat = [lo, hi] := by
  rw [bytesLE_addr, BitVec.extractLsb'_append_eq_right, BitVec.extractLsb'_append_eq_left]

theorem append_bytes (a : Addr16) : a.extractLsb' 8 8 ++ a.extractLsb' 0 8 = a :=
  (BitVec.extractLsb'_append_extractLsb'_eq_extractLsb' rfl).trans BitVec.extractLsb'_eq_self

/-- The bytes of a list of addresses (R222). -/
def addrBytes (as : List Addr16) : List Byte := as.flatMap fun a => bytesLE a.toNat

theorem addrBytes_append_cons (hi lo : Byte) (as : List Addr16) :
    addrBytes ((hi ++ lo) :: as) = lo :: hi :: addrBytes as := by
  rw [addrBytes, List.flatMap_cons, bytesLE_append]
  rfl

theorem addrBytes_cons (a : Addr16) (as : List Addr16) :
    addrBytes (a :: as) = a.extractLsb' 0 8 :: a.extractLsb' 8 8 :: addrBytes as := by
  rw [addrBytes, List.flatMap_cons, bytesLE_addr]
  rfl

theorem recordBytes_eq (r : Record) : recordBytes r = r.1 :: BitVec.ofNat 8 r.2.length :: addrBytes r.2 := rfl

/-- The parser takes a list of addresses from its bytes. -/
theorem takeAddrs_addrBytes (as : List Addr16) (rest : List Byte) :
    takeAddrs as.length (addrBytes as ++ rest) = some (as, rest) := by
  induction as with
  | nil => rfl
  | cons a as ih =>
    rw [addrBytes_cons, List.length_cons, List.cons_append, List.cons_append, takeAddrs, ih, Option.map_some,
      append_bytes]

/-- What it takes are the bytes of the addresses it answers. -/
theorem eq_addrBytes_of_takeAddrs {n : Nat} {bs rest : List Byte} {as : List Addr16}
    (h : takeAddrs n bs = some (as, rest)) : as.length = n ∧ bs = addrBytes as ++ rest := by
  induction n generalizing bs as with
  | zero =>
    obtain ⟨rfl, rfl⟩ := Prod.mk.inj (Option.some.inj h)
    exact ⟨rfl, rfl⟩
  | succ n ih =>
    match bs with
    | [] | [_] => exact absurd h nofun
    | lo :: hi :: bs =>
      obtain ⟨⟨as', rest'⟩, htake, heq⟩ := Option.map_eq_some_iff.1 h
      obtain ⟨rfl, rfl⟩ := Prod.mk.inj heq
      obtain ⟨hlen, hbs⟩ := ih htake
      exact ⟨congrArg (· + 1) hlen, by rw [addrBytes_append_cons, hbs, List.cons_append, List.cons_append]⟩

/-- A record's number of addresses fits in its byte (R222). -/
abbrev RecordsFit (recs : List Record) : Prop := ∀ r ∈ recs, r.2.length ≤ 255

theorem parseRecords_flatMap {recs : List Record} (h : RecordsFit recs) :
    parseRecords recs.length (recs.flatMap recordBytes) = some recs := by
  induction recs with
  | nil => rfl
  | cons r recs ih =>
    obtain ⟨hr, hrecs⟩ := List.forall_mem_cons.1 h
    have hlen : (BitVec.ofNat 8 r.2.length).toNat = r.2.length := by
      rw [BitVec.toNat_ofNat]
      omega
    rw [List.flatMap_cons, recordBytes_eq, List.length_cons, List.cons_append, List.cons_append, parseRecords, hlen,
      takeAddrs_addrBytes]
    simp only [ih hrecs, Option.map_some]

theorem eq_flatMap_of_parseRecords {n : Nat} {bs : List Byte} {recs : List Record}
    (h : parseRecords n bs = some recs) : recs.length = n ∧ RecordsFit recs ∧ bs = recs.flatMap recordBytes := by
  induction n generalizing bs recs with
  | zero =>
    match bs with
    | [] =>
      obtain rfl := Option.some.inj h
      exact ⟨rfl, nofun, rfl⟩
    | _ :: _ => exact absurd h nofun
  | succ n ih =>
    match bs with
    | [] | [_] => exact absurd h nofun
    | v :: c :: bs =>
      rw [parseRecords] at h
      split at h
      case h_1 => exact absurd h nofun
      case h_2 as rest htake =>
        obtain ⟨recs, hparse, rfl⟩ := Option.map_eq_some_iff.1 h
        obtain ⟨hlen, rfl⟩ := eq_addrBytes_of_takeAddrs htake
        obtain ⟨rfl, hfit, rfl⟩ := ih hparse
        have hc := c.isLt
        refine ⟨rfl, List.forall_mem_cons.2 ⟨by change as.length ≤ 255; omega, hfit⟩, ?_⟩
        rw [List.flatMap_cons, recordBytes_eq, hlen, BitVec.ofNat_toNat, BitVec.setWidth_eq]
        rfl

/-! ### Streams -/

/-- The limits of a stream: its number of records fits in 16 bits, each number of addresses in 8 bits, and the table
can hold all addresses (R222, R224). -/
abbrev StreamFits (recs : List Record) : Prop :=
  recs.length < 2 ^ 16 ∧ RecordsFit recs ∧ (recs.map fun r => r.2.length).sum ≤ 0x8000

/-- The parser answers the records of a stream within the limits. -/
theorem parseStream_streamBytes {recs : List Record} (h : StreamFits recs) :
    parseStream (streamBytes recs) = some recs := by
  obtain ⟨hlen, hfit, hsum⟩ := h
  have hcap : (recs.map (·.2.length)).sum ≤ Config.dtAddrCap := hsum
  have hcount : (BitVec.ofNat 8 (recs.length % 256)).toNat + 256 * (BitVec.ofNat 8 (recs.length / 256)).toNat =
      recs.length := by
    rw [BitVec.toNat_ofNat, BitVec.toNat_ofNat]
    omega
  rw [streamBytes, bytesLE, List.cons_append, List.cons_append, List.nil_append, parseStream, hcount,
    parseRecords_flatMap hfit]
  exact if_pos hcap

/-- What it accepts is the stream of the records it answers. -/
theorem eq_streamBytes_of_parseStream {bs : List Byte} {recs : List Record} (h : parseStream bs = some recs) :
    bs = streamBytes recs ∧ StreamFits recs := by
  have hsum := parseStream_total h
  match bs with
  | [] | [_] => exact absurd h nofun
  | lo :: hi :: bs =>
    rw [parseStream] at h
    split at h
    case h_1 => exact absurd h nofun
    case h_2 parsed hparse =>
      obtain ⟨-, heq⟩ := Option.ite_none_right_eq_some.1 h
      obtain rfl := Option.some.inj heq
      obtain ⟨hlen, hfit, rfl⟩ := eq_flatMap_of_parseRecords hparse
      have hlo := lo.isLt
      have hhi := hi.isLt
      have hlow : parsed.length % 256 = lo.toNat := by omega
      have hhigh : parsed.length / 256 = hi.toNat := by omega
      refine ⟨?_, by omega, hfit, hsum⟩
      rw [streamBytes, bytesLE, hlow, hhigh, BitVec.ofNat_toNat, BitVec.ofNat_toNat, BitVec.setWidth_eq,
        BitVec.setWidth_eq]
      rfl

theorem parseStream_eq_some {bs : List Byte} {recs : List Record} :
    parseStream bs = some recs ↔ bs = streamBytes recs ∧ StreamFits recs :=
  ⟨eq_streamBytes_of_parseStream, fun ⟨hbs, hfits⟩ => hbs ▸ parseStream_streamBytes hfits⟩

/-- OUT holds a stream of some records (R224). -/
abbrev State.OutHolds (s : State) (recs : List Record) : Prop :=
  s.outLen.toNat ≤ 0x10400 ∧ (List.range s.outLen.toNat).map s.outAt = streamBytes recs ∧ StreamFits recs

theorem State.outRecords_eq_some {s : State} {recs : List Record} : s.outRecords = some recs ↔ s.OutHolds recs := by
  rw [State.outRecords, Option.ite_none_left_eq_some, Nat.not_lt, parseStream_eq_some]
  rfl

/-! ### UNMARSHAL -/

theorem exec_unmarshal_of_stream {s : State} {recs : List Record} (h : s.OutHolds recs) :
    exec .unmarshal s = .next { s with err := 0, dt := dtAddAll [] (replayList recs) } := by
  have hrecs := State.outRecords_eq_some.2 h
  have hpass : firstFailure [(s.outRecords.isNone, .badStream)] = none :=
    if_neg (by rw [hrecs]; exact Bool.false_ne_true)
  unfold exec execUnmarshal
  rw [guarded_of_pass hpass, hrecs]
  rfl

theorem exec_unmarshal_of_no_stream {s : State} (h : ∀ recs, ¬ s.OutHolds recs) :
    exec .unmarshal s = .next (s.raise .badStream (encode .unmarshal)) := by
  have hnone : s.outRecords = none :=
    Option.eq_none_iff_forall_ne_some.2 fun recs hrecs => h recs (State.outRecords_eq_some.1 hrecs)
  have hfail : firstFailure [(s.outRecords.isNone, .badStream)] = some .badStream := if_pos (by rw [hnone]; rfl)
  unfold exec execUnmarshal
  exact guarded_of_fail hfail

/-- Settles O45: the precheck passes exactly on the streams within the limits. -/
theorem unmarshalReplaysTheStream : Obligations.UnmarshalReplaysTheStream :=
  ⟨rfl, fun _ => ⟨fun _ => exec_unmarshal_of_stream, exec_unmarshal_of_no_stream⟩⟩

/-! ### UNMARSHAL after MARSHAL -/

theorem dtAddAll_cons (dt : List DtItem) (c : Byte × Addr16) (cs : List (Byte × Addr16)) :
    dtAddAll dt (c :: cs) = dtAddAll (dtAdd c.1 c.2 dt) cs := rfl

/-- Further addresses of the last item's byte value are appended to that item. -/
theorem dtAddAll_last_item {b : Byte} {pre : List DtItem} (h : b ∉ pre.map DtItem.byte) (n : BitVec 16)
    (as bs : List Addr16) :
    dtAddAll (pre ++ [⟨b, n, as⟩]) (bs.map (b, ·)) = pre ++ [⟨b, n + BitVec.ofNat 16 bs.length, as ++ bs⟩] := by
  induction bs generalizing n as with
  | nil => simp [dtAddAll]
  | cons a bs ih =>
    rw [List.map_cons, dtAddAll_cons, dtAdd_of_item (it := ⟨b, n, as⟩) rfl h, ih, List.length_cons,
      Nat.add_comm bs.length 1, BitVec.ofNat_add, ← BitVec.add_assoc, List.append_assoc]
    rfl

/-- Replaying an item's addresses after those of other byte values appends the item (R225). -/
theorem dtAddAll_item {it : DtItem} {pre : List DtItem} (hit : it.CountOk) (h : it.byte ∉ pre.map DtItem.byte) :
    dtAddAll pre (it.addrs.map (it.byte, ·)) = pre ++ [it] := by
  obtain ⟨b, n, as⟩ := it
  obtain ⟨hcount, hpos⟩ := hit
  match as with
  | [] => exact absurd hpos (Nat.not_succ_le_zero 0)
  | a :: as =>
    have hn : 1 + BitVec.ofNat 16 as.length = n := by
      have hlen : 1 + as.length = n.toNat := (Nat.add_comm ..).trans hcount.symm
      exact (BitVec.ofNat_add 1 as.length).symm.trans (by rw [hlen, BitVec.ofNat_toNat, BitVec.setWidth_eq])
    rw [List.map_cons, dtAddAll_cons, dtAdd_of_new h, dtAddAll_last_item h, hn]
    rfl

/-- Replaying the items of a table in their order gives the table. -/
theorem dtAddAll_items {pre dt : List DtItem} (hcount : ∀ it ∈ dt, it.CountOk)
    (hnodup : ((pre ++ dt).map DtItem.byte).Nodup) :
    dtAddAll pre (dt.flatMap fun it => it.addrs.map (it.byte, ·)) = pre ++ dt := by
  induction dt generalizing pre with
  | nil => exact (List.append_nil pre).symm
  | cons it dt ih =>
    obtain ⟨hit, hdt⟩ := List.forall_mem_cons.1 hcount
    have hnew : it.byte ∉ pre.map DtItem.byte := by
      rw [List.map_append, List.map_cons] at hnodup
      exact fun hmem => (List.disjoint_of_nodup_append hnodup) hmem List.mem_cons_self
    rw [List.append_cons] at hnodup ⊢
    rw [List.flatMap_cons, dtAddAll_append, dtAddAll_item hit hnew, ih hdt hnodup]

/-- The records of a table replay its items' addresses (R223, R224). -/
theorem replayList_dtRecords {dt : List DtItem} (h : ∀ it ∈ dt, it.CountOk) :
    replayList (dtRecords dt) = dt.flatMap fun it => it.addrs.map (it.byte, ·) := by
  rw [replayList, dtRecords, List.flatMap_assoc]
  refine List.flatMap_congr fun it hit => ?_
  obtain ⟨hcount, -⟩ := h it hit
  calc (it.records.flatMap fun r => r.2.map fun a => (r.1, a))
      = it.records.flatMap fun r => r.2.map (it.byte, ·) :=
        List.flatMap_congr fun r hr => by rw [(it.mem_records hcount hr).1]
    _ = (it.records.flatMap Prod.snd).map (it.byte, ·) := List.map_flatMap.symm
    _ = it.addrs.map (it.byte, ·) := by rw [it.flatMap_records hcount]

/-- The records of a table that keeps its rules are within the limits of a stream. -/
theorem DeltaTableOk.streamFits {dt : List DtItem} (h : DeltaTableOk dt) : StreamFits (dtRecords dt) := by
  have hitems := h.length_le
  obtain ⟨hcount, -, htotal⟩ := h
  have hrecs := length_dtRecords_le hcount
  have hcap : Config.dtAddrCap = 0x8000 := rfl
  refine ⟨by omega, fun r hr => ?_, (sum_dtRecords_le dt).trans htotal⟩
  obtain ⟨it, hit, hr⟩ := List.mem_flatMap.1 hr
  obtain ⟨hlen, -⟩ := hcount it hit
  obtain ⟨-, -, hle⟩ := it.mem_records hlen hr
  exact hle

/-- MARSHAL leaves the stream of the table's records in OUT. -/
theorem DeltaTableOk.outHolds_marshalTable {s : State} (h : DeltaTableOk s.dt) :
    s.marshalTable.OutHolds (dtRecords s.dt) := by
  have hcap : (streamBytes (dtRecords s.dt)).length ≤ 0x10400 := h.length_streamBytes_le
  have hlen : s.marshalTable.outLen.toNat = (streamBytes (dtRecords s.dt)).length := by
    change (BitVec.ofNat 17 (streamBytes (dtRecords s.dt)).length).toNat = _
    rw [BitVec.toNat_ofNat]
    omega
  refine ⟨hlen ▸ hcap, ?_, h.streamFits⟩
  rw [hlen]
  refine List.ext_getElem (by rw [List.length_map, List.length_range]) fun i _ hi => ?_
  rw [List.getElem_map, List.getElem_range, s.marshalTable_outAt_lt hi]

/-- Settles O46: OUT holds the table's records, and replaying them gives the table. -/
theorem marshalThenUnmarshalRestores : Obligations.MarshalThenUnmarshalRestores := by
  intro s h
  have hout : s.clearReport.marshalTable.OutHolds (dtRecords s.dt) :=
    DeltaTableOk.outHolds_marshalTable (s := s.clearReport) h
  refine ⟨_, _, exec_marshal s, exec_unmarshal_of_stream hout, ?_, rfl⟩
  obtain ⟨hcount, hnodup, -⟩ := h
  exact (congrArg (dtAddAll []) (replayList_dtRecords hcount)).trans (dtAddAll_items hcount hnodup)

end Sys2Proof.Machine
end

section
/-! PROOFS. The difference metric of TREDUCE (45_tile_board.md R245): the number of differing pixels, byte by byte. -/

namespace Sys2Proof.Machine

/-- The pixels of one packed byte whose indices differ (R245). -/
def byteDist (m : GMode) (x y : Byte) : Nat := (List.range m.ppb).countP fun k => unpackAt m x k != unpackAt m y k

theorem byteDist_comm (m : GMode) (x y : Byte) : byteDist m x y = byteDist m y x :=
  List.countP_congr fun _ _ => by rw [bne_comm]

theorem byteDist_le (m : GMode) (x y : Byte) : byteDist m x y ≤ m.ppb :=
  List.countP_le_length.trans_eq List.length_range

/-- Bytes with equal indices are equal, as packing undoes unpacking (41_pixel_packer.md R154). -/
theorem byteDist_eq_zero {m : GMode} {x y : Byte} : byteDist m x y = 0 ↔ x = y := by
  constructor
  · intro h
    have hindices : unpackBy Config.pos m x = unpackBy Config.pos m y :=
      List.map_congr_left fun k hk => show unpackAt m x k = unpackAt m y k by
        simpa using List.countP_eq_zero.1 h k hk
    rw [← packBy_unpackBy pos_bijective m x, hindices, packBy_unpackBy pos_bijective]
  · rintro rfl
    exact List.countP_eq_zero.2 fun k _ => by simp

theorem countP_unpack_eq_byteDist (m : GMode) (x y : Byte) :
    (((unpack m x).zip (unpack m y)).countP fun q => q.1 != q.2) = byteDist m x y := by
  change (((List.range m.ppb).map (unpackAt m x)).zip ((List.range m.ppb).map (unpackAt m y))).countP _ = _
  rw [List.zip_map', List.countP_map]
  rfl

/-- The distance of two contents is the sum of the distances of their bytes. -/
theorem tileDist_eq_sum (m : GMode) {a b : List Byte} (h : a.length = b.length) :
    tileDist m a b = ((List.range a.length).map fun j => byteDist m (a.getD j 0) (b.getD j 0)).sum := by
  unfold tileDist
  congr 1
  refine List.ext_getElem (by simp [h]) fun j hj hj' => ?_
  have hja : j < a.length := by simpa using hj'
  rw [List.getElem_map, List.getElem_map, List.getElem_zip, List.getElem_range, countP_unpack_eq_byteDist,
    List.getD_eq_getElem _ _ hja, List.getD_eq_getElem _ _ (h ▸ hja)]

theorem tileDist_comm (m : GMode) {a b : List Byte} (h : a.length = b.length) : tileDist m a b = tileDist m b a := by
  rw [tileDist_eq_sum m h, tileDist_eq_sum m h.symm, h]
  simp only [byteDist_comm m]

theorem tileDist_eq_zero {m : GMode} {a b : List Byte} (h : a.length = b.length) : tileDist m a b = 0 ↔ a = b := by
  rw [tileDist_eq_sum m h, List.sum_eq_zero_iff, List.forall_mem_map]
  constructor
  · intro hbytes
    refine List.ext_getElem h fun j hja hjb => ?_
    have hj := byteDist_eq_zero.1 (hbytes j (List.mem_range.2 hja))
    rwa [List.getD_eq_getElem _ _ hja, List.getD_eq_getElem _ _ hjb] at hj
  · rintro rfl j -
    exact byteDist_eq_zero.2 rfl

theorem tileDist_le (m : GMode) {a b : List Byte} (h : a.length = b.length) : tileDist m a b ≤ a.length * m.ppb := by
  rw [tileDist_eq_sum m h]
  refine (List.sum_le_card_nsmul _ m.ppb (List.forall_mem_map.2 fun j _ => byteDist_le m _ _)).trans_eq ?_
  rw [List.length_map, List.length_range, smul_eq_mul]

/-- Settles O49: the metric is a sum of byte distances, and unpacking separates bytes. -/
theorem differenceMetric : Obligations.DifferenceMetric := fun m _ _ h =>
  ⟨tileDist_eq_sum m h, tileDist_comm m h, tileDist_eq_zero h, tileDist_le m h⟩

end Sys2Proof.Machine
end

section
/-! PROOFS. TREDUCE (45_tile_board.md R246): its precheck, and what the merge leaves: which entries survive and whose
occurrences each survivor takes over. -/

namespace Sys2Proof.Machine

/-! ### What TREDUCE answers -/

/-- The word of a TREDUCE: opcode and threshold (30_encoding.md R111). -/
theorem encode_treduce (imm : BitVec 16) : encode (.treduce imm) = BitVec.ofNat 32 (0x62000000 + imm.toNat) := by
  apply BitVec.eq_of_toNat_eq
  change (0x62#8 ++ (0#8 ++ imm)).toNat = _
  rw [BitVec.toNat_append, BitVec.toNat_append, ← Nat.shiftLeft_add_eq_or_of_lt imm.isLt,
    ← Nat.shiftLeft_add_eq_or_of_lt (by have := imm.isLt; simp only [Nat.shiftLeft_eq, BitVec.toNat_ofNat]; omega)]
  simp only [Nat.shiftLeft_eq, BitVec.toNat_ofNat]
  omega

theorem exec_treduce_of_badState {s : State} (h : s.tb.valid = false ∨ s.tb.sorted = true) (imm : BitVec 16) :
    exec (.treduce imm) s = .next (s.raise .badState (encode (.treduce imm))) := by
  have hfail : firstFailure [(!s.tb.valid || s.tb.sorted, .badState)] = some .badState :=
    if_pos (by simpa using h)
  unfold exec execTreduce
  exact guarded_of_fail hfail

theorem exec_treduce_of_analysed {s : State} (hv : s.tb.valid = true) (hs : s.tb.sorted = false) (imm : BitVec 16) :
    exec (.treduce imm) s = .next { s with
      err := 0, tileEpoch := s.tileEpoch + 1
      tb := { s.tb with entries := reduceTiles s.tb.mode imm.toNat s.tb.entries.length s.tb.entries } } := by
  have hpass : firstFailure [(!s.tb.valid || s.tb.sorted, .badState)] = none :=
    if_neg (by simp [hv, hs])
  unfold exec execTreduce
  exact guarded_of_pass hpass

/-- Settles O50: the one precheck refuses an invalid and a sorted table. -/
theorem treduceMergesEntries : Obligations.TreduceMergesEntries := fun imm _ =>
  ⟨encode_treduce imm, fun h => exec_treduce_of_badState h imm, fun hv hs => exec_treduce_of_analysed hv hs imm⟩

/-! ### The merge, survivor by survivor -/

section
variable {m : GMode} {thr : Nat}

/-- The induction over the outer loop: a property of a catalogue and its merge that holds of the empty catalogue and is
passed from what a survivor leaves to what it was given. -/
theorem reduceTiles_induction {P : List TileEntry → List TileEntry → Prop} (nil : P [] [])
    (cons : ∀ n e es, P (absorb m thr e es).2 (reduceTiles m thr n (absorb m thr e es).2) →
      P (e :: es) ((absorb m thr e es).1 :: reduceTiles m thr n (absorb m thr e es).2)) :
    ∀ (n : Nat) (es : List TileEntry), es.length ≤ n → P es (reduceTiles m thr n es)
  | 0, es, h => by
    rw [List.eq_nil_of_length_eq_zero (Nat.le_zero.1 h)]
    exact nil
  | n + 1, [], _ => nil
  | n + 1, e :: es, h =>
    cons n e es <| reduceTiles_induction nil cons n _ <|
      (absorb_sublist m thr e es).length_le.trans (Nat.le_of_succ_le_succ h)

/-- The entries a survivor leaves are entries it was given, in their order. -/
theorem contents_reduceTiles_absorb (n : Nat) (e : TileEntry) (es : List TileEntry) :
    ((reduceTiles m thr n (absorb m thr e es).2).map TileEntry.content).Sublist (es.map TileEntry.content) :=
  (reduceTiles_contents m thr n _).trans ((absorb_sublist m thr e es).map _)

/-- No two survivors are nearer than the threshold. -/
theorem reduceTiles_pairwise (es : List TileEntry) :
    (reduceTiles m thr es.length es).Pairwise fun e f => thr ≤ tileDist m e.content f.content := by
  refine reduceTiles_induction (m := m) (thr := thr)
    (P := fun _ r => r.Pairwise fun (e f : TileEntry) => thr ≤ tileDist m e.content f.content) List.Pairwise.nil
    (fun n e es ih => List.pairwise_cons.2 ⟨fun f hf => ?_, ih⟩) es.length es le_rfl
  obtain ⟨hcontent, hfar⟩ := absorb_eq m thr e es
  obtain ⟨x, hx, hxf⟩ := List.mem_map.1 ((reduceTiles_contents m thr n _).subset (List.mem_map_of_mem hf))
  rw [hfar] at hx
  rw [hcontent, ← hxf]
  exact of_decide_eq_true (List.mem_filter.1 hx).2

/-- The merge keeps the number of occurrences, while it fits a count. -/
theorem tileTotal_reduceTiles {es : List TileEntry} (h : tileTotal es < 2 ^ 16) :
    tileTotal (reduceTiles m thr es.length es) = tileTotal es := by
  refine reduceTiles_induction (P := fun es r => tileTotal es < 2 ^ 16 → tileTotal r = tileTotal es)
    (fun _ => rfl) (fun n e es ih hes => ?_) es.length es le_rfl h
  have hsum := absorb_total m thr e es hes
  have hfits : tileTotal (absorb m thr e es).2 < 2 ^ 16 :=
    (tileTotal_le_of_sublist (absorb_sublist m thr e es)).trans_lt ((Nat.le_add_left _ _).trans_lt hes)
  rw [tileTotal_cons, ih hfits, hsum, tileTotal_cons]

/-! ### The owner of an entry -/

/-- The survivor that an entry goes to: the first one with its content or nearer than the threshold (R246). -/
abbrev tileOwner (m : GMode) (thr : Nat) (r : List TileEntry) (e : TileEntry) : Option TileEntry :=
  r.find? fun f => f.content == e.content || decide (tileDist m f.content e.content < thr)

/-- An entry that is merged into a survivor, or that survives, has it as its owner. -/
theorem tileOwner_absorb_of_near {e x : TileEntry} (es r : List TileEntry)
    (h : e.content = x.content ∨ tileDist m e.content x.content < thr) :
    tileOwner m thr ((absorb m thr e es).1 :: r) x = some (absorb m thr e es).1 :=
  List.find?_cons_of_pos (by rw [(absorb_eq m thr e es).1]; simpa using h)

/-- The other entries have their owners among the later survivors. -/
theorem tileOwner_absorb_of_far {e x : TileEntry} (es r : List TileEntry) (hne : e.content ≠ x.content)
    (h : ¬ tileDist m e.content x.content < thr) :
    tileOwner m thr ((absorb m thr e es).1 :: r) x = tileOwner m thr r x :=
  List.find?_cons_of_neg (by rw [(absorb_eq m thr e es).1]; simpa using And.intro hne (Nat.not_lt.1 h))

/-- Every entry has an owner. -/
theorem tileOwner_isSome {es : List TileEntry} {e : TileEntry} (h : e ∈ es) :
    (tileOwner m thr (reduceTiles m thr es.length es) e).isSome = true := by
  refine reduceTiles_induction (P := fun es r => ∀ e ∈ es, (tileOwner m thr r e).isSome = true)
    (fun _ => nofun) (fun n e es ih x hx => ?_) es.length es le_rfl e h
  by_cases hnear : e.content = x.content ∨ tileDist m e.content x.content < thr
  · rw [tileOwner_absorb_of_near _ _ hnear]
    rfl
  · obtain ⟨hne, hfar⟩ := not_or.1 hnear
    have hxes : x ∈ es := (List.mem_cons.1 hx).resolve_left fun hxe => hne (hxe ▸ rfl)
    rw [tileOwner_absorb_of_far _ _ hne hfar]
    refine ih x ?_
    rw [(absorb_eq m thr e es).2]
    exact List.mem_filter.2 ⟨hxes, decide_eq_true (Nat.not_lt.1 hfar)⟩

theorem tileTotal_perm {es fs : List TileEntry} (h : es.Perm fs) : tileTotal es = tileTotal fs :=
  (h.map fun e : TileEntry => e.count.toNat).sum_eq

/-- A survivor takes over the occurrences of the entries near it. -/
theorem absorb_count_toNat {e : TileEntry} {es : List TileEntry} (h : tileTotal (e :: es) < 2 ^ 16) :
    (absorb m thr e es).1.count.toNat =
      e.count.toNat + tileTotal (es.filter fun x => decide (tileDist m e.content x.content < thr)) := by
  have hsum := absorb_total m thr e es h
  have hsplit := tileTotal_perm (List.filter_append_perm (fun x => decide (tileDist m e.content x.content < thr)) es)
  have hfar : (absorb m thr e es).2 = es.filter fun x => !decide (tileDist m e.content x.content < thr) :=
    (absorb_eq m thr e es).2.trans (List.filter_congr fun x _ => by rw [← decide_not, decide_eq_decide, Nat.not_lt])
  rw [tileTotal_append, ← hfar] at hsplit
  omega

/-- The entries of a survivor, among those it was given: itself and those near it. -/
theorem filter_tileOwner_eq_self {e : TileEntry} {es r : List TileEntry} (hnew : e.content ∉ es.map TileEntry.content)
    (hr : (r.map TileEntry.content).Sublist (es.map TileEntry.content)) :
    ((e :: es).filter fun x => tileOwner m thr ((absorb m thr e es).1 :: r) x == some (absorb m thr e es).1) =
      e :: es.filter fun x => decide (tileDist m e.content x.content < thr) := by
  rw [List.filter_cons_of_pos (by rw [tileOwner_absorb_of_near es r (.inl rfl), beq_self_eq_true])]
  refine congrArg (e :: ·) (List.filter_congr fun x hx => ?_)
  have hne : e.content ≠ x.content := fun h => hnew (h ▸ List.mem_map_of_mem hx)
  by_cases hnear : tileDist m e.content x.content < thr
  · rw [tileOwner_absorb_of_near es r (.inr hnear), beq_self_eq_true, decide_eq_true hnear]
  · rw [tileOwner_absorb_of_far es r hne hnear, decide_eq_false hnear, beq_eq_false_iff_ne]
    intro howner
    have hmem := hr.subset (List.mem_map_of_mem (List.mem_of_find?_eq_some howner))
    rw [(absorb_eq m thr e es).1] at hmem
    exact hnew hmem

/-- The entries of a later survivor are among those that the first one leaves. -/
theorem filter_tileOwner_eq_later {e f : TileEntry} {es r : List TileEntry}
    (hnew : e.content ∉ es.map TileEntry.content) (hf : f ≠ (absorb m thr e es).1) :
    ((e :: es).filter fun x => tileOwner m thr ((absorb m thr e es).1 :: r) x == some f) =
      (absorb m thr e es).2.filter fun x => tileOwner m thr r x == some f := by
  have hself : (some (absorb m thr e es).1 == some f) = false :=
    beq_eq_false_iff_ne.2 fun h => hf (Option.some.inj h).symm
  rw [List.filter_cons_of_neg (by rw [tileOwner_absorb_of_near es r (.inl rfl), hself]; exact Bool.false_ne_true),
    (absorb_eq m thr e es).2, List.filter_filter]
  refine List.filter_congr fun x hx => ?_
  have hne : e.content ≠ x.content := fun h => hnew (h ▸ List.mem_map_of_mem hx)
  by_cases hnear : tileDist m e.content x.content < thr
  · rw [tileOwner_absorb_of_near es r (.inr hnear), hself, decide_eq_false (Nat.not_le.2 hnear), Bool.and_false]
  · rw [tileOwner_absorb_of_far es r hne hnear, decide_eq_true (Nat.not_lt.1 hnear), Bool.and_true]

/-- Each survivor has the occurrences of the entries it owns. -/
theorem count_reduceTiles {es : List TileEntry} (hnodup : (es.map TileEntry.content).Nodup)
    (hfits : tileTotal es < 2 ^ 16) : ∀ f ∈ reduceTiles m thr es.length es, f.count.toNat =
      tileTotal (es.filter fun e => tileOwner m thr (reduceTiles m thr es.length es) e == some f) := by
  refine reduceTiles_induction (P := fun es r => (es.map TileEntry.content).Nodup → tileTotal es < 2 ^ 16 →
      ∀ f ∈ r, f.count.toNat = tileTotal (es.filter fun e => tileOwner m thr r e == some f))
    (fun _ _ => nofun) (fun n e es ih hnodup hfits f hf => ?_) es.length es le_rfl hnodup hfits
  obtain ⟨hnew, hnodup⟩ := List.nodup_cons.1 hnodup
  have hr := contents_reduceTiles_absorb (m := m) (thr := thr) n e es
  have hsub := absorb_sublist m thr e es
  rcases List.mem_cons.1 hf with rfl | hf
  · rw [filter_tileOwner_eq_self hnew hr, tileTotal_cons, absorb_count_toNat hfits]
  · have hne : f ≠ (absorb m thr e es).1 := by
      rintro rfl
      exact hnew ((absorb_eq m thr e es).1 ▸ hr.subset (List.mem_map_of_mem hf))
    rw [filter_tileOwner_eq_later hnew hne]
    exact ih (hnodup.sublist (hsub.map _))
      ((tileTotal_le_of_sublist hsub).trans_lt ((Nat.le_add_left _ _).trans_lt hfits)) f hf

end

/-- Settles O51: survivor by survivor, an entry is merged into the first one near it. -/
theorem reducedCatalogue : Obligations.ReducedCatalogue := fun m thr es hnodup hfits =>
  ⟨reduceTiles_contents m thr es.length es, reduceTiles_pairwise es, fun _ => tileOwner_isSome,
    count_reduceTiles hnodup hfits, tileTotal_reduceTiles hfits⟩

end Sys2Proof.Machine
end

section
/-! PROOFS. TSORT (45_tile_board.md R247): its precheck, and that the sort is stable. -/

namespace Sys2Proof.Machine

theorem exec_tsort_of_invalid {s : State} (h : s.tb.valid = false) :
    exec .tsort s = .next (s.raise .badState (encode .tsort)) := by
  have hfail : firstFailure [(!s.tb.valid, .badState)] = some .badState := if_pos (by rw [h]; rfl)
  unfold exec execTsort
  exact guarded_of_fail hfail

theorem exec_tsort_of_valid {s : State} (h : s.tb.valid = true) :
    exec .tsort s = .next (State.flag .capacityExceeded (if s.tb.ovf then 1 else 0) { s with
      err := 0, tileEpoch := s.tileEpoch + 1
      tb := { s.tb with entries := sortTiles s.tb.entries, sorted := true } }) := by
  have hpass : firstFailure [(!s.tb.valid, .badState)] = none := if_neg (by rw [h]; exact Bool.false_ne_true)
  unfold exec execTsort
  exact guarded_of_pass hpass

/-- Entries of one count keep their order: they are a sublist of the sorted table, which has no others of that count. -/
theorem filter_count_sortTiles (es : List TileEntry) (c : BitVec 16) :
    ((sortTiles es).filter fun e => e.count == c) = es.filter fun e => e.count == c := by
  have hequal : (es.filter fun e => e.count == c).Pairwise fun a b => b.count.toNat ≤ a.count.toNat := by
    refine List.pairwise_of_forall_mem_list fun a ha b hb => ?_
    rw [eq_of_beq (List.mem_filter.1 ha).2, eq_of_beq (List.mem_filter.1 hb).2]
  have hsub : (es.filter fun e => e.count == c).Sublist (sortTiles es) :=
    List.sublist_insertionSort hequal List.filter_sublist
  have hperm := (sortTiles_perm es).filter fun e => e.count == c
  have hsub' := hsub.filter fun e => e.count == c
  rw [List.filter_filter] at hsub'
  simp only [Bool.and_self] at hsub'
  exact (hsub'.eq_of_length hperm.length_eq.symm).symm

/-- Settles O52: the sorted entries are those of `sortTiles`. -/
theorem tsortIsStable : Obligations.TsortIsStable :=
  ⟨rfl, fun s => ⟨exec_tsort_of_invalid, fun hv => ⟨sortTiles s.tb.entries, exec_tsort_of_valid hv,
    sortTiles_perm s.tb.entries, sortTiles_pairwise s.tb.entries, filter_count_sortTiles s.tb.entries⟩⟩⟩

end Sys2Proof.Machine
end

section
/-! PROOFS. TLOOKUP and TMAP (45_tile_board.md R248, R249): the prechecks that they share, and what they report and
write. -/

namespace Sys2Proof.Machine

section
variable {s : State} {sl : Slot}

/-! ### The shared prechecks -/

theorem State.catalogueChecks_of_invalid (h : s.tb.valid = false) :
    firstFailure (s.catalogueChecks sl) = some .badState := if_pos (by rw [h]; rfl)

theorem State.catalogueChecks_of_misfit (hv : s.tb.valid = true) (h : ¬ s.CatalogueAccepts sl) :
    firstFailure (s.catalogueChecks sl) = some .invalidDimensions := by
  have hpass : firstFailure [(!s.tb.valid, Err.badState)] = none := if_neg (by rw [hv]; exact Bool.false_ne_true)
  exact firstFailure_append_of_pass (cs := [(!s.tb.valid, Err.badState)]) (List.forall_mem_singleton.2 rfl) hpass
    (mt State.catalogueChecks_pass.1 h)

/-! ### TLOOKUP -/

theorem exec_tlookup_of_checks_fail {e : Err} (h : firstFailure (s.catalogueChecks sl) = some e) :
    exec (.tlookup sl) s = .next (s.raise e (encode (.tlookup sl))) :=
  guarded_of_fail (by rw [firstFailure_append, h, Option.some_or])

theorem exec_tlookup_of_cell_ge (h : s.CatalogueAccepts sl) (hn : s.tb.cells ≤ s.arg0.toNat) :
    exec (.tlookup sl) s = .next (s.raise .invalidDimensions (encode (.tlookup sl))) := by
  refine guarded_of_fail ?_
  rw [firstFailure_append, State.catalogueChecks_pass.2 h, Option.none_or]
  exact if_pos (decide_eq_true hn)

/-- For a cell of the grid TLOOKUP reports its position in the table. -/
theorem exec_tlookup_of_cell_lt (h : s.CatalogueAccepts sl) (hn : s.arg0.toNat < s.tb.cells) :
    exec (.tlookup sl) s = .next (s.clearReport.reportLookup (s.cellIndex sl s.arg0.toNat)) := by
  refine guarded_of_pass ?_
  rw [firstFailure_append, State.catalogueChecks_pass.2 h, Option.none_or]
  exact if_neg (by simpa using hn)

/-! ### TMAP -/

theorem exec_tmap_of_checks_fail {e : Err} (h : firstFailure (s.catalogueChecks sl) = some e) :
    exec (.tmap sl) s = .next (s.raise e (encode (.tmap sl))) := guarded_of_fail h

theorem exec_tmap_of_accepts (h : s.CatalogueAccepts sl) : exec (.tmap sl) s = .next (s.clearReport.mapTiles sl) :=
  guarded_of_pass (State.catalogueChecks_pass.2 h)

theorem State.length_cellIndices (s : State) (sl : Slot) : (s.cellIndices sl).length = s.tb.cells := by
  rw [State.cellIndices, List.length_map, List.length_range]

/-- A cell of the map holds the table position of its tile, or 0. -/
theorem State.mapTiles_mapAt_lt {n : Nat} (h : n < s.tb.cells) :
    (s.mapTiles sl).mapAt n = BitVec.ofNat 8 ((s.cellIndex sl n).getD 0) := by
  have hlen : n < ((s.cellIndices sl).map fun r => BitVec.ofNat 8 (r.getD 0)).length := by
    rwa [List.length_map, State.length_cellIndices]
  refine (Memory.read_fill_lt s.map s.epoch .map _ hlen).trans ?_
  simp only [State.cellIndices, List.getElem_map, List.getElem_range]

theorem State.mapTiles_mapAt_ge {n : Nat} (h : s.tb.cells ≤ n) : (s.mapTiles sl).mapAt n = s.mapAt n :=
  Memory.read_fill_ge s.map s.epoch .map _ (by rwa [List.length_map, State.length_cellIndices])

/-- The events of TMAP are the cells that no entry matches. -/
theorem State.count_none_cellIndices (s : State) (sl : Slot) :
    (s.cellIndices sl).count none = (List.range s.tb.cells).countP fun n =>
      decide (∀ e ∈ s.tb.entries, e.content ≠ s.cellContent s.tb sl n) := by
  rw [State.cellIndices, List.count, List.countP_map]
  refine List.countP_congr fun n _ => ?_
  rw [decide_eq_true_iff, ← tileIndex_eq_none]
  exact beq_iff_eq

end

/-! ### The statements -/

/-- Settles O53: TLOOKUP reports the first position with the cell's content. -/
theorem tlookupFindsTheTile : Obligations.TlookupFindsTheTile := by
  refine ⟨rfl, rfl, fun sl s => ⟨fun hv => exec_tlookup_of_checks_fail (State.catalogueChecks_of_invalid hv),
    fun hv h => exec_tlookup_of_checks_fail (State.catalogueChecks_of_misfit hv h), exec_tlookup_of_cell_ge,
    fun h hn => ⟨fun k e hk he hlow => ?hit, fun hnone => ?miss⟩⟩⟩
  case hit =>
    have hfind : s.cellIndex sl s.arg0.toNat = some k := tileIndex_eq_some.2 ⟨⟨e, hk, he⟩, hlow⟩
    rw [exec_tlookup_of_cell_lt h hn, hfind]
    rfl
  case miss =>
    have hfind : s.cellIndex sl s.arg0.toNat = none := tileIndex_eq_none.2 hnone
    rw [exec_tlookup_of_cell_lt h hn, hfind, State.clearReport_reportLookup_none]

/-- Settles O54: the map is filled with the positions of the cells' tiles. -/
theorem tmapWritesEveryCell : Obligations.TmapWritesEveryCell := by
  refine ⟨rfl, rfl, fun sl s => ⟨fun hv => exec_tmap_of_checks_fail (State.catalogueChecks_of_invalid hv),
    fun hv h => exec_tmap_of_checks_fail (State.catalogueChecks_of_misfit hv h),
    fun h => ⟨s.clearReport.mapTiles sl, exec_tmap_of_accepts h, ?_, fun n hn => ⟨fun k e hk he hlow => ?hit,
      fun hnone => ?miss⟩, fun n => State.mapTiles_mapAt_ge (s := s.clearReport)⟩⟩⟩
  · exact congrArg (State.flag .notFound · _) (State.count_none_cellIndices s sl)
  case hit =>
    have hfind : s.clearReport.cellIndex sl n = some k := tileIndex_eq_some.2 ⟨⟨e, hk, he⟩, hlow⟩
    rw [State.mapTiles_mapAt_lt (s := s.clearReport) hn, hfind, Option.getD_some]
  case miss =>
    have hfind : s.clearReport.cellIndex sl n = none := tileIndex_eq_none.2 hnone
    rw [State.mapTiles_mapAt_lt (s := s.clearReport) hn, hfind, Option.getD_none]
    rfl

end Sys2Proof.Machine
end

section
/-! PROOFS. TANALYZE (45_tile_board.md R241, R243, R244): its prechecks, the geometry it captures, and the catalogue
that registering the cells one by one builds. -/

namespace Sys2Proof.Machine

/-! ### What TANALYZE answers -/

section
variable {s : State} {m : GMode} {sl : Slot}

theorem exec_tanalyze_of_reserved_mode (h : s.mode = 3) :
    exec (.tanalyze sl) s = .next (s.raise .badConfig (encode (.tanalyze sl))) :=
  withMode_of_reserved (gmode_eq_none.2 h)

/-- Every test after the mode's raises InvalidDimensions. -/
theorem exec_tanalyze_of_not_accepts (hm : s.gmode? = some m) (h : ¬ s.AnalyzeAccepts m sl) :
    exec (.tanalyze sl) s = .next (s.raise .invalidDimensions (encode (.tanalyze sl))) := by
  have hreport : AllReport .invalidDimensions (s.analyzeChecks m sl) := by
    simp only [State.analyzeChecks, AllReport, List.forall_mem_cons, List.not_mem_nil, false_implies, implies_true,
      and_self]
  exact (withMode_of_mode hm).trans
    (guarded_of_fail (firstFailure_of_not_pass hreport (mt (State.analyzeChecks_pass hm).1 h)))

theorem exec_tanalyze_of_accepts (h : s.AnalyzeAccepts m sl) :
    exec (.tanalyze sl) s = .next (s.clearReport.analyze m sl) := by
  have hm : s.gmode? = some m := h.1
  exact (withMode_of_mode hm).trans (guarded_of_pass ((State.analyzeChecks_pass hm).2 h))

/-- Settles O48: MODE 3 fails before the list, whose tests all raise InvalidDimensions. -/
theorem tanalyzeRejects : Obligations.TanalyzeRejects := fun _ _ =>
  ⟨exec_tanalyze_of_reserved_mode, fun _ hm h => exec_tanalyze_of_not_accepts hm h⟩

/-! ### The captured geometry -/

/-- The captured fields hold the numbers of R241, and its mw is the width of the frame in bytes. -/
theorem State.AnalyzeAccepts.capturedGeometry_fields (h : s.AnalyzeAccepts m sl) :
    (s.capturedGeometry m).cols.toNat = s.width.toNat / s.tileW.toNat ∧
    (s.capturedGeometry m).rows.toNat = s.height.toNat / s.tileH.toNat ∧
    (s.capturedGeometry m).tbytes.toNat = s.tileW.toNat / m.ppb * s.tileH.toNat ∧
    (s.capturedGeometry m).frameRowBytes = s.width.toNat / m.ppb := by
  obtain ⟨-, -, -, -, -, -, hpix, hcols, -, hbytes, -, -⟩ := h
  have hc : (s.capturedGeometry m).cols.toNat = s.width.toNat / s.tileW.toNat :=
    Nat.mod_eq_of_lt ((Nat.div_le_self ..).trans_lt s.width.isLt)
  refine ⟨hc, Nat.mod_eq_of_lt ((Nat.div_le_self ..).trans_lt s.height.isLt),
    Nat.mod_eq_of_lt (hbytes.trans_lt (by decide)), ?_⟩
  calc (s.capturedGeometry m).frameRowBytes
      = s.width.toNat / s.tileW.toNat * (s.tileW.toNat / m.ppb) := congrArg (· * (s.tileW.toNat / m.ppb)) hc
    _ = s.width.toNat / s.tileW.toNat * s.tileW.toNat / m.ppb :=
      (Nat.mul_div_assoc _ (Nat.dvd_of_mod_eq_zero hpix)).symm
    _ = s.width.toNat / m.ppb := by rw [Nat.div_mul_cancel (Nat.dvd_of_mod_eq_zero hcols)]

/-- The cells of the captured grid have the bytes of the frame. -/
theorem State.AnalyzeAccepts.cells_mul_tbytes (h : s.AnalyzeAccepts m sl) :
    (s.fbLen.get sl).toNat = (s.capturedGeometry m).cells * (s.capturedGeometry m).tbytes.toNat := by
  obtain ⟨hcols, hrows, htb, hframe⟩ := h.capturedGeometry_fields
  obtain ⟨-, -, -, -, -, -, -, -, hheight, -, -, hlen⟩ := h
  have hrow : (s.capturedGeometry m).cols.toNat * (s.tileW.toNat / m.ppb) = s.width.toNat / m.ppb := hframe
  calc (s.fbLen.get sl).toNat
      = s.width.toNat / m.ppb * s.height.toNat := hlen
    _ = (s.capturedGeometry m).cols.toNat * (s.tileW.toNat / m.ppb) *
        (s.height.toNat / s.tileH.toNat * s.tileH.toNat) := by
      rw [hrow, Nat.div_mul_cancel (Nat.dvd_of_mod_eq_zero hheight)]
    _ = (s.capturedGeometry m).cells * (s.capturedGeometry m).tbytes.toNat := by
      rw [TileTable.cells, hrows, htb]
      ring

/-- A byte of a cell, by its row and column in the cell (R241). -/
theorem State.AnalyzeAccepts.getElem?_cellContent (h : s.AnalyzeAccepts m sl) (n : Nat) {r c : Nat}
    (hr : r < s.tileH.toNat) (hc : c < s.tileW.toNat / m.ppb) :
    (s.cellContent (s.capturedGeometry m) sl n)[r * (s.tileW.toNat / m.ppb) + c]? = some (s.fbAt sl
      ((n / (s.width.toNat / s.tileW.toNat) * s.tileH.toNat + r) * (s.width.toNat / m.ppb) +
        n % (s.width.toNat / s.tileW.toNat) * (s.tileW.toNat / m.ppb) + c)) := by
  obtain ⟨hcols, -, htb, hframe⟩ := h.capturedGeometry_fields
  obtain ⟨hrow, hcol⟩ := div_mod_of_lt (q := r) hc
  have hbyte : r * (s.tileW.toNat / m.ppb) + c < (s.capturedGeometry m).tbytes.toNat :=
    calc r * (s.tileW.toNat / m.ppb) + c
        < (r + 1) * (s.tileW.toNat / m.ppb) := by rw [Nat.succ_mul]; omega
      _ ≤ s.tileH.toNat * (s.tileW.toNat / m.ppb) := Nat.mul_le_mul_right _ hr
      _ = (s.capturedGeometry m).tbytes.toNat := by rw [htb, Nat.mul_comm]
  have hloc : (s.capturedGeometry m).cellLoc n (r * (s.tileW.toNat / m.ppb) + c) =
      (n / (s.width.toNat / s.tileW.toNat) * s.tileH.toNat + r) * (s.width.toNat / m.ppb) +
        n % (s.width.toNat / s.tileW.toNat) * (s.tileW.toNat / m.ppb) + c := by
    have hwidth : (s.capturedGeometry m).rowBytes = s.tileW.toNat / m.ppb := rfl
    have hth : (s.capturedGeometry m).th = s.tileH := rfl
    simp only [TileTable.cellLoc, hframe, hcols, hwidth, hth, hrow, hcol]
  rw [State.cellContent, List.getElem?_map, List.getElem?_range hbyte, Option.map_some, hloc]

end

/-! ### The catalogue of a list of cells -/

/-- What the catalogue of some cells holds: each content with its number of cells, in first-seen order; a content that
is missing was first seen when the table was full; `d` cells have such contents (R243, R244). -/
structure Catalogues (cells : List (List Byte)) (es : List TileEntry) (d : Nat) : Prop where
  nodup : (es.map TileEntry.content).Nodup
  length_le : (es.map TileEntry.content).length ≤ 255
  counted : ∀ e ∈ es, e.content ∈ cells ∧ e.count.toNat = cells.count e.content
  firstSeen : (es.map TileEntry.content).Pairwise fun a b => cells.idxOf a < cells.idxOf b
  missing : ∀ c ∈ cells, c ∉ es.map TileEntry.content →
    (es.map TileEntry.content).length = 255 ∧ ∀ a ∈ es.map TileEntry.content, cells.idxOf a < cells.idxOf c
  dropped : d = cells.countP fun c => decide (c ∉ es.map TileEntry.content)

/-- Where no content has two entries, one more occurrence is added to each entry with the content. -/
theorem bumpTile_eq_map {c : List Byte} {es : List TileEntry} (h : (es.map TileEntry.content).Nodup) :
    bumpTile c es = es.map fun e => if e.content = c then { e with count := e.count + 1 } else e := by
  induction es with
  | nil => rfl
  | cons e es ih =>
    obtain ⟨hnew, hes⟩ := List.nodup_cons.1 h
    rw [bumpTile, List.map_cons]
    by_cases hc : e.content = c
    · have hrest : (es.map fun e => if e.content = c then { e with count := e.count + 1 } else e) = es.map id :=
        List.map_congr_left fun f hf => if_neg fun hfc : f.content = c =>
          hnew (List.mem_map.2 ⟨f, hf, hfc.trans hc.symm⟩)
      rw [if_pos hc, if_pos hc, hrest, List.map_id]
    · rw [if_neg hc, if_neg hc, ih hes]

/-- A further cell does not change the order in which contents were first seen. -/
theorem idxOf_concat_lt {α : Type} [BEq α] [LawfulBEq α] {l : List α} {a b : α} (ha : a ∈ l)
    (h : l.idxOf a < l.idxOf b) (c : α) : (l ++ [c]).idxOf a < (l ++ [c]).idxOf b := by
  rw [List.idxOf_append_of_mem ha]
  by_cases hb : b ∈ l
  · rwa [List.idxOf_append_of_mem hb]
  · rw [List.idxOf_append_of_notMem hb]
    exact (List.idxOf_lt_length_of_mem ha).trans_le (Nat.le_add_right _ _)

/-- A further cell leaves the number of cells with another content. -/
theorem count_concat_of_ne {α : Type} [BEq α] [LawfulBEq α] {a c : α} (h : c ≠ a) (l : List α) :
    (l ++ [c]).count a = l.count a := by
  rw [List.count_append, List.count_singleton, if_neg (mt eq_of_beq h), Nat.add_zero]

namespace Catalogues

theorem nil : Catalogues [] [] 0 :=
  ⟨List.nodup_nil, Nat.zero_le _, nofun, List.Pairwise.nil, nofun, rfl⟩

section
variable {cells : List (List Byte)} {es : List TileEntry} {d : Nat}

theorem mem_cells (h : Catalogues cells es d) {a : List Byte} (ha : a ∈ es.map TileEntry.content) : a ∈ cells := by
  obtain ⟨e, he, rfl⟩ := List.mem_map.1 ha
  exact (h.counted e he).1

/-- A catalogue that has room has the content of each cell. -/
theorem mem_of_room (h : Catalogues cells es d) (hroom : es.length < 255) {c : List Byte} (hc : c ∈ cells) :
    c ∈ es.map TileEntry.content := by
  by_contra hnew
  obtain ⟨hfull, -⟩ := h.missing c hc hnew
  rw [List.length_map] at hfull
  omega

theorem firstSeen_concat (h : Catalogues cells es d) (c : List Byte) :
    (es.map TileEntry.content).Pairwise fun a b => (cells ++ [c]).idxOf a < (cells ++ [c]).idxOf b :=
  h.firstSeen.imp_of_mem fun ha _ hlt => idxOf_concat_lt (h.mem_cells ha) hlt c

/-- A cell with a content of the catalogue is counted. -/
theorem bump (h : Catalogues cells es d) {c : List Byte} (hc : c ∈ es.map TileEntry.content)
    (hlen : cells.length + 1 < 2 ^ 16) : Catalogues (cells ++ [c]) (bumpTile c es) d := by
  have hcontents := contents_bumpTile c es
  refine ⟨hcontents.symm ▸ h.nodup, hcontents.symm ▸ h.length_le, fun e he => ?counted,
    hcontents.symm ▸ h.firstSeen_concat c, ?missing, ?dropped⟩
  case counted =>
    rw [bumpTile_eq_map h.nodup] at he
    obtain ⟨f, hf, rfl⟩ := List.mem_map.1 he
    obtain ⟨hmem, hcount⟩ := h.counted f hf
    by_cases hfc : f.content = c
    · have hle : cells.count f.content ≤ cells.length := List.count_le_length
      have hadd : (f.count + 1).toNat = f.count.toNat + 1 := by
        rw [BitVec.toNat_add]
        exact Nat.mod_eq_of_lt (show f.count.toNat + 1 < 2 ^ 16 by omega)
      rw [if_pos hfc, hadd, hcount, List.count_append, hfc, List.count_singleton_self]
      exact ⟨by simp, rfl⟩
    · rw [if_neg hfc, count_concat_of_ne (Ne.symm hfc)]
      exact ⟨List.mem_append_left _ hmem, hcount⟩
  case missing =>
    rw [hcontents]
    intro x hx hnew
    have hxc : x ∈ cells := (List.mem_append.1 hx).resolve_right fun hx => hnew (List.mem_singleton.1 hx ▸ hc)
    obtain ⟨hfull, hlt⟩ := h.missing x hxc hnew
    exact ⟨hfull, fun a ha => idxOf_concat_lt (h.mem_cells ha) (hlt a ha) c⟩
  case dropped =>
    rw [hcontents, List.countP_append, List.countP_singleton, if_neg (by simpa using hc), Nat.add_zero]
    exact h.dropped

/-- A cell with a new content gets an entry while there is room. -/
theorem append (h : Catalogues cells es d) {c : List Byte} (hnew : c ∉ es.map TileEntry.content)
    (hroom : es.length < 255) : Catalogues (cells ++ [c]) (es ++ [⟨c, 1⟩]) d := by
  have hc : c ∉ cells := fun hc => hnew (h.mem_of_room hroom hc)
  have hcontents : (es ++ [(⟨c, 1⟩ : TileEntry)]).map TileEntry.content = es.map TileEntry.content ++ [c] :=
    List.map_append
  have hall : ∀ x ∈ cells ++ [c], x ∈ (es ++ [(⟨c, 1⟩ : TileEntry)]).map TileEntry.content := fun x hx =>
    hcontents ▸ List.mem_append.2 ((List.mem_append.1 hx).imp (h.mem_of_room hroom) id)
  refine ⟨?nodup, by simpa using hroom, fun e he => ?counted, ?firstSeen, fun x hx hx' => absurd (hall x hx) hx',
    ?dropped⟩
  case nodup =>
    rw [hcontents]
    exact h.nodup.append (List.nodup_singleton c) (List.disjoint_singleton.2 hnew)
  case counted =>
    rcases List.mem_append.1 he with he | he
    · obtain ⟨hmem, hcount⟩ := h.counted e he
      rw [count_concat_of_ne (show c ≠ e.content from fun hce => hc (hce ▸ hmem))]
      exact ⟨List.mem_append_left _ hmem, hcount⟩
    · obtain rfl := List.mem_singleton.1 he
      rw [List.count_append, List.count_eq_zero.2 hc, List.count_singleton_self]
      exact ⟨by simp, rfl⟩
  case firstSeen =>
    rw [hcontents]
    refine List.pairwise_append.2 ⟨h.firstSeen_concat c, List.pairwise_singleton _ _, fun a ha b hb => ?_⟩
    have ha' := h.mem_cells ha
    rw [List.mem_singleton.1 hb]
    exact idxOf_concat_lt ha' (by rw [List.idxOf_eq_length hc]; exact List.idxOf_lt_length_of_mem ha') c
  case dropped =>
    have hd : d = 0 := h.dropped.trans <|
      List.countP_eq_zero.2 fun x hx hx' => of_decide_eq_true hx' (h.mem_of_room hroom hx)
    rw [hd, eq_comm, List.countP_eq_zero]
    exact fun x hx hx' => of_decide_eq_true hx' (hall x hx)

/-- A cell with a new content is dropped when the table is full. -/
theorem drop (h : Catalogues cells es d) {c : List Byte} (hnew : c ∉ es.map TileEntry.content)
    (hfull : 255 ≤ es.length) : Catalogues (cells ++ [c]) es (d + 1) := by
  have hlen : (es.map TileEntry.content).length = 255 := h.length_le.antisymm (by rwa [List.length_map])
  refine ⟨h.nodup, h.length_le, fun e he => ?_, h.firstSeen_concat c, fun x hx hx' => ⟨hlen, fun a ha => ?_⟩, ?_⟩
  · obtain ⟨hmem, hcount⟩ := h.counted e he
    rw [count_concat_of_ne (show c ≠ e.content from fun hce => hnew (hce ▸ List.mem_map_of_mem he))]
    exact ⟨List.mem_append_left _ hmem, hcount⟩
  · have ha' := h.mem_cells ha
    refine idxOf_concat_lt ha' ?_ c
    by_cases hxc : x ∈ cells
    · exact (h.missing x hxc hx').2 a ha
    · rw [List.idxOf_eq_length hxc]
      exact List.idxOf_lt_length_of_mem ha'
  · rw [List.countP_append, List.countP_singleton, if_pos (by simpa using hnew), ← h.dropped]

end

/-- Registering cells one by one builds their catalogue. -/
theorem foldl_registerTile (cells : List (List Byte)) (hlen : cells.length < 2 ^ 16) :
    Catalogues cells (cells.foldl registerTile ([], 0)).1 (cells.foldl registerTile ([], 0)).2 := by
  induction cells using List.reverseRecOn with
  | nil => exact nil
  | append_singleton cells c ih =>
    rw [List.length_append, List.length_singleton] at hlen
    have h := ih (by omega)
    rw [List.foldl_append, List.foldl_cons, List.foldl_nil]
    rcases registerTile_cases (cells.foldl registerTile ([], 0)) c with
      ⟨hc, hr⟩ | ⟨hnew, hroom, hr⟩ | ⟨hnew, hfull, hr⟩ <;> rw [hr]
    · exact h.bump hc hlen
    · exact h.append hnew hroom
    · exact h.drop hnew hfull

end Catalogues

/-- TANALYZE leaves the catalogue of the cells of the frame. -/
theorem State.AnalyzeAccepts.catalogues {s : State} {m : GMode} {sl : Slot} (h : s.AnalyzeAccepts m sl) :
    Catalogues ((List.range (s.capturedGeometry m).cells).map (s.cellContent (s.capturedGeometry m) sl))
      (s.scanTiles (s.capturedGeometry m) sl).1 (s.scanTiles (s.capturedGeometry m) sl).2 := by
  obtain ⟨hbytes, hfits⟩ := h.captured
  have hcells : (s.capturedGeometry m).cells ≤ Config.fbCap := (Nat.le_mul_of_pos_right _ hbytes).trans hfits
  refine Catalogues.foldl_registerTile _ ?_
  rw [List.length_map, List.length_range]
  exact hcells.trans_lt (by decide)

/-- Settles O47: the captured fields, the bytes of a cell, and the catalogue of the cells. -/
theorem tanalyzeBuildsTheCatalogue : Obligations.TanalyzeBuildsTheCatalogue := by
  refine ⟨rfl, rfl, fun sl s m h => ?_⟩
  obtain ⟨hcols, hrows, htb, -⟩ := h.capturedGeometry_fields
  have hcat := h.catalogues
  exact ⟨s.clearReport.analyze m sl, (s.scanTiles (s.capturedGeometry m) sl).2, exec_tanalyze_of_accepts h, rfl, rfl,
    rfl, rfl, hcols, hrows, htb, rfl, rfl, rfl, fun n r c hr hc => h.getElem?_cellContent n hr hc, hcat.nodup,
    hcat.length_le, hcat.counted, hcat.firstSeen, hcat.missing, hcat.dropped⟩

end Sys2Proof.Machine
end

section
/-! PROOFS. After an analysis without overflow every cell of the frame is found (45_tile_board.md R250): the catalogue
has the content of each cell, and sorting only moves its entries; and the life cycle of the tile table (R251). -/

namespace Sys2Proof.Machine

/-! ### Tables that hold every cell of a frame -/

/-- The frame of a slot fits the table, and the table has an entry for each of its cells. -/
structure State.HoldsEveryCell (s : State) (sl : Slot) : Prop where
  accepts : s.CatalogueAccepts sl
  length_le : s.tb.entries.length ≤ Config.tileCap
  found : ∀ n < s.tb.cells, s.cellContent s.tb sl n ∈ s.tb.entries.map TileEntry.content

namespace State.HoldsEveryCell

variable {s : State} {sl : Slot}

theorem cellIndex_eq_some (h : s.HoldsEveryCell sl) {n : Nat} (hn : n < s.tb.cells) :
    ∃ k, s.cellIndex sl n = some k := by
  obtain ⟨e, he, hcontent⟩ := List.mem_map.1 (h.found n hn)
  exact Option.ne_none_iff_exists'.1 fun hnone => tileIndex_eq_none.1 hnone e he hcontent

/-- TMAP raises no event. -/
theorem exec_tmap (h : s.HoldsEveryCell sl) :
    ∃ t, exec (.tmap sl) s = .next t ∧ t.err = 0 ∧ t.nfCnt = s.nfCnt := by
  have hnone : (s.clearReport.cellIndices sl).count none = 0 := by
    refine List.count_eq_zero.2 fun hmem => ?_
    obtain ⟨n, hn, hnone⟩ := List.mem_map.1 hmem
    obtain ⟨k, hk⟩ := h.cellIndex_eq_some (List.mem_range.1 hn)
    exact Option.some_ne_none k (hk.symm.trans hnone)
  refine ⟨_, exec_tmap_of_accepts h.accepts, ?_⟩
  rw [State.mapTiles, hnone, State.flag_zero]
  exact ⟨rfl, rfl⟩

/-- TLOOKUP of a cell hits the entry with the content of the cell. -/
theorem exec_tlookup (h : s.HoldsEveryCell sl) {n : Word} (hn : n.toNat < s.tb.cells) :
    ∃ t, exec (.tlookup sl) { s with arg0 := n } = .next t ∧ t.res1 = 0 ∧
      (s.tb.entries[t.res0.toNat]?).map TileEntry.content = some (s.cellContent s.tb sl n.toNat) := by
  obtain ⟨k, hk⟩ := h.cellIndex_eq_some hn
  obtain ⟨⟨e, he, hcontent⟩, -⟩ := tileIndex_eq_some.1 hk
  obtain ⟨hlt, -⟩ := List.getElem?_eq_some_iff.1 he
  have hres : (BitVec.ofNat 32 k).toNat = k := Nat.mod_eq_of_lt ((hlt.trans_le h.length_le).trans (by decide))
  refine ⟨State.setRes { s with err := 0, arg0 := n } (BitVec.ofNat 32 k) 0, ?_, rfl, ?_⟩
  · refine (exec_tlookup_of_cell_lt (s := { s with arg0 := n }) h.accepts hn).trans ?_
    exact congrArg (fun r => Host.Outcome.next (State.reportLookup r { s with err := 0, arg0 := n })) hk
  · rw [State.setRes_res0, hres, he, Option.map_some, hcontent]

/-- Sorting a table moves its entries only. -/
theorem sorted (h : s.HoldsEveryCell sl) : State.HoldsEveryCell { s with
    err := 0, tileEpoch := s.tileEpoch + 1
    tb := { s.tb with entries := sortTiles s.tb.entries, sorted := true } } sl where
  accepts := h.accepts
  length_le := (sortTiles_perm s.tb.entries).length_eq.trans_le h.length_le
  found := fun n hn => ((sortTiles_perm s.tb.entries).map _).mem_iff.2 (h.found n hn)

end State.HoldsEveryCell

/-- A catalogue from which no cell was dropped has the content of each cell. -/
theorem Catalogues.mem_of_no_drop {cells : List (List Byte)} {es : List TileEntry} (h : Catalogues cells es 0)
    {c : List Byte} (hc : c ∈ cells) : c ∈ es.map TileEntry.content := by
  by_contra hnew
  exact List.countP_eq_zero.1 h.dropped.symm c hc (decide_eq_true hnew)

/-- TANALYZE without overflow leaves a table that holds every cell, and raises no event. -/
theorem State.AnalyzeAccepts.analyze_of_no_overflow {s : State} {m : GMode} {sl : Slot} (h : s.AnalyzeAccepts m sl)
    (hovf : (s.clearReport.analyze m sl).tb.ovf = false) :
    (s.clearReport.analyze m sl).HoldsEveryCell sl ∧ (s.clearReport.analyze m sl).nfCnt = s.nfCnt := by
  have hcat := h.catalogues
  have hdrop : (s.scanTiles (s.capturedGeometry m) sl).2 = 0 :=
    Nat.eq_zero_of_not_pos (of_decide_eq_false hovf)
  rw [hdrop] at hcat
  refine ⟨⟨⟨rfl, h.cells_mul_tbytes⟩, ?_, fun n hn => ?_⟩, rfl⟩
  · exact (List.length_map _).symm.trans_le hcat.length_le
  · exact hcat.mem_of_no_drop (List.mem_map_of_mem (List.mem_range.2 hn))

/-! ### ERR.CODE after a command -/

/-- A fatal error shows its code, which is not 0 (60_exceptions.md R286). -/
theorem State.errCode_raise_ne_zero (s : State) (e : Err) (w : Word) : (s.raise e w).errCode ≠ 0 := by
  change (BitVec.ofNat 32 e.code).extractLsb' 0 8 ≠ 0
  cases e <;> decide

/-- Event bits leave ERR.CODE 0 (60_exceptions.md R289). -/
theorem EventsOnly.errCode_eq_zero {s : State} (h : EventsOnly s.err) : s.errCode = 0 := by
  have hmask : (~~~0x00070000#32).extractLsb' 0 8 = BitVec.allOnes 8 := by decide
  have hcode := congrArg (BitVec.extractLsb' 0 8) h
  rw [BitVec.extractLsb'_and, hmask, BitVec.and_allOnes] at hcode
  exact hcode

/-- A command without ERR.CODE has completed. -/
theorem exec_completes {i : Instr} {s t : State} (h : exec i s = .next t) (hcode : t.errCode = 0) :
    Completes s i t := by
  rcases exec_next h with ⟨e, rfl⟩ | hc
  · exact absurd hcode (s.errCode_raise_ne_zero e _)
  · exact hc

/-! ### The condition of the table after a command (R251) -/

section
variable {s t : State}

theorem exec_tanalyze_condition {sl : Slot} (h : exec (.tanalyze sl) s = .next t) :
    (t.errCode = 0 → t.tb.valid = true ∧ t.tb.sorted = false) ∧ (t.errCode ≠ 0 → t.tb = s.tb) := by
  rcases exec_next h with ⟨e, rfl⟩ | hc
  · exact ⟨fun hcode => absurd hcode (s.errCode_raise_ne_zero e _), fun _ => rfl⟩
  · cases hc with
    | tanalyze sl m ha =>
      have hevents : EventsOnly (s.clearReport.analyze m sl).err := (eventsOnly_clearReport s).flag _ _
      exact ⟨fun _ => ⟨rfl, rfl⟩, absurd hevents.errCode_eq_zero⟩

theorem exec_treduce_condition {imm : BitVec 16} (h : exec (.treduce imm) s = .next t) :
    (t.errCode = 0 ↔ s.tb.valid = true ∧ s.tb.sorted = false) ∧ t.tb.valid = s.tb.valid ∧
      t.tb.sorted = s.tb.sorted := by
  by_cases hok : s.tb.valid = true ∧ s.tb.sorted = false
  · obtain ⟨hv, hs⟩ := hok
    obtain rfl := Host.Outcome.next.inj ((exec_treduce_of_analysed hv hs imm).symm.trans h)
    exact ⟨⟨fun _ => ⟨hv, hs⟩, fun _ => rfl⟩, rfl, rfl⟩
  · have hbad : s.tb.valid = false ∨ s.tb.sorted = true :=
      (not_and_or.1 hok).imp (Bool.not_eq_true _).mp (Bool.not_eq_false _).mp
    obtain rfl := Host.Outcome.next.inj ((exec_treduce_of_badState hbad imm).symm.trans h)
    exact ⟨⟨fun hcode => absurd hcode (s.errCode_raise_ne_zero _ _), fun hok' => absurd hok' hok⟩, rfl, rfl⟩

theorem exec_tsort_condition (h : exec .tsort s = .next t) :
    (t.errCode = 0 ↔ s.tb.valid = true) ∧ t.tb.valid = s.tb.valid ∧ (s.tb.valid = true → t.tb.sorted = true) := by
  cases hv : s.tb.valid with
  | true =>
    obtain rfl := Host.Outcome.next.inj ((exec_tsort_of_valid hv).symm.trans h)
    have hevents := (eventsOnly_clearReport s).flag .capacityExceeded (if s.tb.ovf then 1 else 0)
    exact ⟨⟨fun _ => rfl, fun _ => EventsOnly.errCode_eq_zero hevents⟩, hv, fun _ => rfl⟩
  | false =>
    obtain rfl := Host.Outcome.next.inj ((exec_tsort_of_invalid hv).symm.trans h)
    exact ⟨⟨fun hcode => absurd hcode (s.errCode_raise_ne_zero _ _), nofun⟩, hv, nofun⟩

/-- TLOOKUP and TMAP are refused on an empty table. -/
theorem exec_lookups_of_invalid {i : Instr} {sl : Slot} (hi : i = .tlookup sl ∨ i = .tmap sl)
    (hv : s.tb.valid = false) : exec i s = .next (s.raise .badState (encode i)) := by
  have hchecks : firstFailure (s.catalogueChecks sl) = some .badState := State.catalogueChecks_of_invalid hv
  rcases hi with rfl | rfl
  · exact exec_tlookup_of_checks_fail hchecks
  · exact exec_tmap_of_checks_fail hchecks

end

/-! ### The statements -/

/-- Settles O55: the table holds every cell before and after the sort. -/
theorem catalogueIsExhaustive : Obligations.CatalogueIsExhaustive := by
  intro sl s t h hcode hovf
  obtain ⟨m, ha, rfl⟩ : ∃ m, s.AnalyzeAccepts m sl ∧ t = s.clearReport.analyze m sl := by
    cases exec_completes h hcode with
    | tanalyze sl m ha => exact ⟨m, ha, rfl⟩
  obtain ⟨hall, hnf⟩ := ha.analyze_of_no_overflow hovf
  have hsort := exec_tsort_of_valid hall.accepts.1
  rw [hovf, if_neg Bool.false_ne_true, State.flag_zero] at hsort
  refine ⟨_, hsort, List.forall_mem_cons.2 ⟨?_, List.forall_mem_singleton.2 ?_⟩⟩
  · exact ⟨hnf ▸ hall.exec_tmap, fun n => hall.exec_tlookup⟩
  · exact ⟨hnf ▸ hall.sorted.exec_tmap, fun n => hall.sorted.exec_tlookup⟩

/-- Settles O56: each command that writes the table completes in the conditions of R251, and no other has the table in
its frame. -/
theorem tileTableLifeCycle : Obligations.TileTableLifeCycle := by
  intro i s t h
  refine ⟨?clear, fun sl hi => exec_tanalyze_condition (hi ▸ h), fun imm hi => exec_treduce_condition (hi ▸ h),
    fun hi => exec_tsort_condition (hi ▸ h), fun sl hi hv => ?lookups, fun hi => ?other⟩
  case clear =>
    rintro (rfl | rfl) <;> obtain rfl := Host.Outcome.next.inj h <;> exact ⟨rfl, rfl⟩
  case lookups =>
    obtain rfl := Host.Outcome.next.inj ((exec_lookups_of_invalid hi hv).symm.trans h)
    rfl
  case other =>
    obtain ⟨-, -, -, -, -, -, htb, -⟩ := eachStoreHasItsWriters i s t h
    exact htb fun hmem => hi ((List.Perm.swap ..).mem_iff.1 hmem)

end Sys2Proof.Machine
end

section
/-! PROOFS. The four commands without operands and prechecks that clear: NOP and SRESET (46_system.md R270, R271), DCLR
(44_delta_engine.md R215) and TCLR (45_tile_board.md R242). None can fail, so each completes in every state. -/

namespace Sys2Proof.Machine

/-! ### What the commands answer -/

theorem exec_nop (s : State) : exec .nop s = .next s.clearReport := by
  unfold exec execNop
  exact guarded_nil ..

theorem exec_dclr (s : State) : exec .dclr s = .next { s.clearReport with dt := [] } := by
  unfold exec execDclr
  exact guarded_nil ..

/-- The ERR that a completed command clears is one of the registers that SRESET resets. -/
@[simp] theorem State.softReset_clearReport (s : State) : s.clearReport.softReset = s.softReset := rfl

theorem exec_sreset (s : State) : exec .sreset s = .next s.softReset := by
  unfold exec execSreset
  rw [guarded_nil, State.softReset_clearReport]

theorem exec_tclr (s : State) : exec .tclr s = .next (s.clearReport.setTable TileTable.empty) := by
  unfold exec execTclr
  exact guarded_nil ..

/-! ### The statements -/

/-- Settles O15: the report is all that NOP clears, and DCLR clears the delta table besides. -/
theorem nopAndDclr : Obligations.NopAndDclr :=
  ⟨rfl, rfl, fun s => ⟨exec_nop s, exec_dclr s⟩⟩

/-- Settles O16: SRESET is `State.softReset` in every state, and TCLR stores the empty table. -/
theorem sresetAndTclr : Obligations.SresetAndTclr :=
  ⟨rfl, rfl, fun s => ⟨exec_sreset s, exec_tclr s⟩⟩

end Sys2Proof.Machine
end

section
/-! PROOFS. What events and fatal errors do to the report registers (60_exceptions.md R281, R286, R287, R289): an event
flagged again and again, the code that ERR shows, and what a completed command reports of its events. -/

namespace Sys2Proof.Machine

/-! ### Flagging an event -/

/-- The bits are set by the first event, and the counter counts the two runs one after the other (R287). -/
theorem State.flag_succ (s : State) (e : Event) (n : Nat) : s.flag e (n + 1) = (s.flag e n).flag e 1 := by
  cases n with
  | zero => rw [State.flag_zero]
  | succ n => cases e <;> simp [State.flag, satAdd_add _ (n + 1) 1, BitVec.or_assoc]

/-! ### The bits and the counter of an event -/

/-- The place of an event's bit in FLAGS, and in ERR.EVT (60_exceptions.md R281, R289). -/
def Event.index : Event → Nat
  | .notFound => 0
  | .addressOutOfRange => 1
  | .capacityExceeded => 2

theorem Event.getLsbD_evtBit (e e' : Event) : e.evtBit.getLsbD (16 + e'.index) = decide (e' = e) := by
  cases e <;> cases e' <;> rfl

theorem Event.getLsbD_flagBit (e e' : Event) : e.err.flagBit.getLsbD e'.index = decide (e' = e) := by
  cases e <;> cases e' <;> rfl

/-- ERR.EVT remembers an event (60_exceptions.md R289). -/
def State.remembers (s : State) (e : Event) : Bool := s.err.getLsbD (16 + e.index)

/-- FLAGS shows an event (10_state.md R27). -/
def State.showsFlag (s : State) (e : Event) : Bool := s.flags.getLsbD e.index

/-- The counter of an event (10_state.md R40). That of CapacityExceeded is written by TANALYZE, not by `State.flag`. -/
def State.counter (s : State) : Event → Word
  | .notFound => s.nfCnt
  | .addressOutOfRange => s.aoorCnt
  | .capacityExceeded => s.tovfCnt

section
variable (s : State) (e e' : Event) (n : Nat)

theorem State.remembers_clearReport : s.clearReport.remembers e = false := BitVec.getLsbD_zero

theorem State.remembers_flag :
    (s.flag e n).remembers e' = true ↔ s.remembers e' = true ∨ n ≠ 0 ∧ e' = e := by
  rw [State.remembers, State.flag_err, State.remembers]
  split <;> simp [Event.getLsbD_evtBit, *]

theorem State.showsFlag_flag :
    (s.flag e n).showsFlag e' = true ↔ s.showsFlag e' = true ∨ n ≠ 0 ∧ e' = e := by
  rw [State.showsFlag, State.flag_flags, State.showsFlag]
  split <;> simp [Event.getLsbD_flagBit, *]

end

/-- An event counts in its own counter only. -/
theorem State.counter_flag_of_ne (s : State) {e e' : Event} (n : Nat) (h : e' ≠ e) :
    (s.flag e n).counter e' = s.counter e' := by
  cases e' with
  | notFound => cases e with
    | notFound => exact absurd rfl h
    | addressOutOfRange | capacityExceeded => rfl
  | addressOutOfRange => cases e with
    | addressOutOfRange => exact absurd rfl h
    | notFound | capacityExceeded => rfl
  | capacityExceeded => rfl

/-! ### Commands that complete -/

/-- The report registers of `t` tell the events since `s` (60_exceptions.md R289): ERR holds event bits only, ERRCMD is
that of `s`, a counter has moved only if ERR.EVT remembers its event, and a remembered event shows in FLAGS. -/
def ReportsEvents (s t : State) : Prop :=
  EventsOnly t.err ∧ t.errCmd = s.errCmd ∧
    ∀ e, (t.remembers e = false → t.counter e = s.counter e) ∧ (t.remembers e = true → t.showsFlag e = true)

theorem reportsEvents_clearReport (s : State) : ReportsEvents s s.clearReport :=
  ⟨eventsOnly_clearReport s, rfl, fun e => ⟨fun _ => by cases e <;> rfl,
    fun hyes => absurd ((s.remembers_clearReport e).symm.trans hyes) Bool.false_ne_true⟩⟩

section
variable {s t : State}

/-- `n` events of one kind, whose counter the command may have written itself: `u` is `t` but for that counter and for
what is no report register. -/
theorem ReportsEvents.flag_counted (h : ReportsEvents s t) {u : State} (e : Event) (n : Nat) (herr : u.err = t.err)
    (hcmd : u.errCmd = t.errCmd) (hflags : u.flags = t.flags)
    (hcount : ∀ e', n = 0 ∨ e' ≠ e → u.counter e' = t.counter e') : ReportsEvents s (u.flag e n) := by
  obtain ⟨hevents, hcmd', hbits⟩ := h
  have hrem (e' : Event) : u.remembers e' = t.remembers e' := by rw [State.remembers, herr, State.remembers]
  have hshow (e' : Event) : u.showsFlag e' = t.showsFlag e' := by rw [State.showsFlag, hflags, State.showsFlag]
  refine ⟨EventsOnly.flag (herr ▸ hevents) e n, hcmd.trans hcmd', fun e' => ⟨fun hno => ?_, fun hyes => ?_⟩⟩
  · rw [← Bool.not_eq_true, State.remembers_flag, not_or, hrem, Bool.not_eq_true] at hno
    obtain ⟨hno, hother⟩ := hno
    have hcases : n = 0 ∨ e' ≠ e := (not_and_or.1 hother).imp_left not_not.1
    have hsame : (u.flag e n).counter e' = u.counter e' := by
      rcases hcases with rfl | hne
      · rw [State.flag_zero]
      · exact u.counter_flag_of_ne n hne
    exact (hsame.trans (hcount e' hcases)).trans ((hbits e').1 hno)
  · rw [State.remembers_flag, hrem] at hyes
    rw [State.showsFlag_flag, hshow]
    exact hyes.imp_left (hbits e').2

/-- Flagging keeps the report telling its events. -/
theorem ReportsEvents.flag (h : ReportsEvents s t) (e : Event) (n : Nat) : ReportsEvents s (t.flag e n) :=
  h.flag_counted e n rfl rfl rfl fun _ _ => rfl

theorem ReportsEvents.reportLookup (h : ReportsEvents s t) (r : Option Nat) : ReportsEvents s (t.reportLookup r) := by
  cases r with
  | none => exact h.flag .notFound 1
  | some _ => exact h

/-- TANALYZE counts the dropped cells in TOVFCNT and flags them (45_tile_board.md R243). -/
theorem ReportsEvents.analyze (h : ReportsEvents s t) (m : GMode) (sl : Slot) : ReportsEvents s (t.analyze m sl) := by
  refine h.flag_counted .capacityExceeded _ rfl rfl rfl fun e' he' => ?_
  cases e' with
  | notFound | addressOutOfRange => rfl
  | capacityExceeded =>
    obtain hzero | hne := he'
    · exact (congrArg (satAdd t.tovfCnt) hzero).trans (satAdd_zero _)
    · exact absurd rfl hne

/-- All commands but SRESET report by flagging events; only TANALYZE writes a counter besides. -/
theorem Completes.reportsEvents {i : Instr} (h : Completes s i t) (hi : i ≠ .sreset) : ReportsEvents s t := by
  have h0 := reportsEvents_clearReport s
  cases h with
  | sreset => exact absurd rfl hi
  | plookup | tlookup => exact h0.reportLookup _
  | safwd | sainv | diff | encodeFrame | decodeFrame | tsort | tmap => exact h0.flag _ _
  | diffi => exact (h0.flag .addressOutOfRange _).flag _ _
  | tanalyze sl m => exact h0.analyze m sl
  | nop | pack | unpack | dclr | dadd | marshal | unmarshal | tclr | treduce => exact h0

theorem Completes.eventsOnly {i : Instr} (h : Completes s i t) : EventsOnly t.err := by
  by_cases hi : i = .sreset
  · subst hi
    cases h
    exact BitVec.zero_and
  · exact (h.reportsEvents hi).1

/-! ### Commands that fail -/

/-- The word of ERR tells the condition: the codes number the conditions from 1 on (60_exceptions.md R281). -/
theorem Err.ofNat_code_injective : Function.Injective fun e : Err => BitVec.ofNat 32 e.code := by
  refine Function.LeftInverse.injective (g := fun w : Word => Err.ofNat (w.toNat - 1)) fun e => ?_
  cases e <;> rfl

/-- A command that shows a code has failed with one fatal error: its report is neither of the two that are events
only. -/
theorem exec_fails {i : Instr} (h : exec i s = .next t) (hcode : t.errCode ≠ 0) :
    ∃ e : Err, e ≠ .notFound ∧ e ≠ .addressOutOfRange ∧ t = s.raise e (encode i) := by
  obtain ⟨e, rfl⟩ | hc := exec_next h
  · obtain ⟨e', hnf, haoor, herr⟩ | hevents := exec_errReportOk h
    · obtain rfl : e = e' := Err.ofNat_code_injective herr
      exact ⟨e, hnf, haoor, rfl⟩
    · exact absurd (EventsOnly.errCode_eq_zero hevents) hcode
  · exact absurd hc.eventsOnly.errCode_eq_zero hcode

end

/-! ### The statements -/

/-- Settles O17: one event sets its two bits and counts once, and a run of events repeats that. -/
theorem flaggedEvent : Obligations.FlaggedEvent :=
  ⟨fun _ => ⟨rfl, rfl, rfl⟩, fun e n s => ⟨s.flag_zero e, s.flag_succ e n⟩⟩

/-- Settles O19: the command has completed, and its report agrees on each of the three events. -/
theorem completionReport : Obligations.CompletionReport := by
  intro i s t h hcode
  have hc := exec_completes h hcode
  refine ⟨hc.eventsOnly, fun hi => ?_⟩
  obtain ⟨-, hcmd, hbits⟩ := hc.reportsEvents hi
  obtain ⟨hnf, hnfFlag⟩ := hbits .notFound
  obtain ⟨haoor, haoorFlag⟩ := hbits .addressOutOfRange
  obtain ⟨hcap, hcapFlag⟩ := hbits .capacityExceeded
  exact ⟨hcmd, hnf, haoor, hcap, hnfFlag, haoorFlag, hcapFlag⟩

/-- Settles O18: the failing state is `State.raise` of a fatal condition; its three writes are spelled for each code. -/
theorem fatalErrorChangesOnlyTheReport : Obligations.FatalErrorChangesOnlyTheReport := by
  refine ⟨fun i s t h hcode => ?_, fun w s => ⟨rfl, rfl, rfl, rfl, rfl, rfl, rfl, rfl, rfl, rfl⟩⟩
  obtain ⟨e, hnf, haoor, ht⟩ := exec_fails h hcode
  exact ⟨e, hnf, haoor, ht, ht⟩

end Sys2Proof.Machine
end

section
/-! PROOFS. The reset line (70_reset_and_hazards.md R320): what it holds back while it is asserted, and what its two
edges do. -/

namespace Sys2Proof.Machine

variable {s : State}

/-! ### Bus operations while reset is asserted -/

theorem runOp_read_of_inReset (h : s.inReset = true) (wa : BusAddr) : runOp (.read wa) s = .fault .heldInReset := by
  simp only [runOp, h, if_true]

theorem runOp_write_of_inReset (h : s.inReset = true) (wa : BusAddr) (v : Word) :
    runOp (.write wa v) s = .fault .heldInReset := by
  simp only [runOp, h, if_true]

/-! ### The two edges of the line -/

theorem resetLine_assert (s : State) : resetLine true s = { s with inReset := true } := rfl

theorem resetLine_release (h : s.inReset = true) : resetLine false s = s.hardReset := by
  simp only [resetLine, h, Bool.false_eq_true, if_true, if_false]

/-- The state that a release leaves is the reset state but for the build parameter, the two epochs and the host's
operations to come. -/
theorem State.hardReset_eq (s : State) : s.hardReset = { State.reset with
    binding := s.binding, epoch := s.epoch + 1, tileEpoch := s.tileEpoch + 1, pending := s.pending } := rfl

theorem runOp_resetLine (a : Bool) (s : State) : runOp (.resetLine a) s = .next (resetLine a s) := rfl

/-- Settles O14: the guard of the bus operations, then the line's two edges. -/
theorem hardwareReset : Obligations.HardwareReset := by
  refine ⟨fun s wa v h => ⟨runOp_read_of_inReset h wa, runOp_write_of_inReset h wa v⟩, fun s => ?_, fun s h => ?_⟩
  · rw [runOp_resetLine, resetLine_assert]
  · rw [runOp_resetLine, resetLine_release h, State.hardReset_eq]

end Sys2Proof.Machine
end
